-- ==== Sys2Proof/Word.lean ====
section
/-! DEFINITION. The machine's plainest types: a byte (a palette index, a pattern byte or a map byte) and a nibble
(one opcode of the map). Source: 00_scope.md R5, R6. -/

namespace Sys2Proof

/-- 8 bits: the only width of a memory access (20_memory.md R72). -/
abbrev Byte := BitVec 8

/-- 4 bits: the width of an opcode (00_scope.md R5). -/
abbrev Nibble := BitVec 4

end Sys2Proof
end

