-- ==== Sys2Proof/Syntax.lean ====
section
/-! DEFINITION. The instruction set: the 16 opcodes (30_encoding.md R94) and the 24 instructions, one constructor per
row of spec/opcode_table.json. An instruction carries its operand bytes as 30_encoding.md R95 lays them out. -/

namespace Sys2Proof

/-- The 16 opcodes (30_encoding.md R94). None is reserved (R102). -/
inductive Opcode where
  | cph | keep | cpcf | cpcb | cphn | cphw | skip2 | pat2
  | pat2q | pat4 | pat4q | raw | raw2 | raw4 | fill | dith
deriving DecidableEq, Repr

/-- The 24 forms (30_encoding.md R95, R97). -/
inductive Form where
  | cph | keep | cpcf | cpcb | cphn | cphw | skip2
  | pat2Row | pat2Cell
  | pat2qQuad | pat2qLr | pat2qTb
  | pat4U1x1 | pat4U2x2 | pat4U2x1 | pat4U1x2
  | pat4qQuad | pat4qLr | pat4qTb
  | raw | raw2 | raw4 | fill | dith
deriving DecidableEq, Repr

/-- One instruction: a form with its operands. Where R95 gives the form a table of bytes, `d` is the whole of
`d[0..n-1]`; where it names single operands, they stand under their names. -/
inductive Instr where
  /-- 0x0, R171. -/
  | cph
  /-- 0x1, R172. -/
  | keep
  /-- 0x2, R173: `b` is the far offset code. -/
  | cpcf (b : Byte)
  /-- 0x3, R174: `b` is the far offset code. -/
  | cpcb (b : Byte)
  /-- 0x4, R175: `xn` is `d[0][3:0]`, `yn` is `d[0][7:4]`. -/
  | cphn (xn yn : Nibble)
  /-- 0x5, R176: `x` is `d[0]`, `y` is `d[1]`, both signed bytes. -/
  | cphw (x y : Byte)
  /-- 0x6, R190. -/
  | skip2
  /-- 0x7 with `d[0] <= d[1]`, R200. -/
  | pat2Row (d : Vector Byte 10)
  /-- 0x7 with `d[0] > d[1]`, R201. -/
  | pat2Cell (d : Vector Byte 4)
  /-- 0x8 with `d[0] <= d[1]`, R203. -/
  | pat2qQuad (d : Vector Byte 16)
  /-- 0x8 with `d[0] > d[1]` and `d[6] <= d[7]`, R204. -/
  | pat2qLr (d : Vector Byte 12)
  /-- 0x8 with `d[0] > d[1]` and `d[6] > d[7]`, R205. -/
  | pat2qTb (d : Vector Byte 12)
  /-- 0x9 with `d[0] <= d[1]` and `d[2] <= d[3]`, R220. -/
  | pat4U1x1 (d : Vector Byte 20)
  /-- 0x9 with `d[0] <= d[1]` and `d[2] > d[3]`, R221. -/
  | pat4U2x2 (d : Vector Byte 8)
  /-- 0x9 with `d[0] > d[1]` and `d[2] <= d[3]`, R222. -/
  | pat4U2x1 (d : Vector Byte 12)
  /-- 0x9 with `d[0] > d[1]` and `d[2] > d[3]`, R223. -/
  | pat4U1x2 (d : Vector Byte 12)
  /-- 0xA with `d[0] <= d[1]`, R225. -/
  | pat4qQuad (d : Vector Byte 32)
  /-- 0xA with `d[0] > d[1]` and `d[12] <= d[13]`, R226. -/
  | pat4qLr (d : Vector Byte 24)
  /-- 0xA with `d[0] > d[1]` and `d[12] > d[13]`, R227. -/
  | pat4qTb (d : Vector Byte 24)
  /-- 0xB, R240. -/
  | raw (d : Vector Byte 64)
  /-- 0xC, R241. -/
  | raw2 (d : Vector Byte 16)
  /-- 0xD, R242. -/
  | raw4 (d : Vector Byte 4)
  /-- 0xE, R243: `c` is `d[0]`. -/
  | fill (c : Byte)
  /-- 0xF, R244: `c0` is `d[0]`, `c1` is `d[1]`. -/
  | dith (c0 c1 : Byte)
deriving DecidableEq, Repr

end Sys2Proof
end

