-- ==== Sys2Proof/WellFormed.lean ====
section
/-! DEFINITION. Which instructions an encoding can stand for. The operand counts are in the types; what is left to
check is the order of the selecting colours of the multi-form opcodes (30_encoding.md R96): "The `.FORM` suffix is a
comment: the form is determined by the operand bytes themselves" (R104). -/

namespace Sys2Proof

/-- The operand bytes select the instruction's own form (30_encoding.md R96; bytes compare unsigned, 00_scope.md R7). -/
def Instr.wellFormed : Instr → Bool
  | .pat2Row d => decide (d[0] ≤ d[1])
  | .pat2Cell d => decide (d[1] < d[0])
  | .pat2qQuad d => decide (d[0] ≤ d[1])
  | .pat2qLr d => decide (d[1] < d[0]) && decide (d[6] ≤ d[7])
  | .pat2qTb d => decide (d[1] < d[0]) && decide (d[7] < d[6])
  | .pat4U1x1 d => decide (d[0] ≤ d[1]) && decide (d[2] ≤ d[3])
  | .pat4U2x2 d => decide (d[0] ≤ d[1]) && decide (d[3] < d[2])
  | .pat4U2x1 d => decide (d[1] < d[0]) && decide (d[2] ≤ d[3])
  | .pat4U1x2 d => decide (d[1] < d[0]) && decide (d[3] < d[2])
  | .pat4qQuad d => decide (d[0] ≤ d[1])
  | .pat4qLr d => decide (d[1] < d[0]) && decide (d[12] ≤ d[13])
  | .pat4qTb d => decide (d[1] < d[0]) && decide (d[13] < d[12])
  | .cph | .keep | .cpcf _ | .cpcb _ | .cphn _ _ | .cphw _ _ | .skip2 => true
  | .raw _ | .raw2 _ | .raw4 _ | .fill _ | .dith _ _ => true

end Sys2Proof
end

