-- ==== Sys2Proof/Decode.lean ====
section
/-! DEFINITION. Decoding and encoding. An instruction is a 4-bit opcode from the map and the operand bytes the payload
holds next (30_encoding.md R90). The decoder takes the opcode and the payload bytes that may still be read, in stream
order, and answers the instruction with the bytes it leaves; it refuses only a payload that is too short, which the
machine turns into the `PayloadOverrun` exception (20_memory.md R69). The encoder writes the same tables the other way. -/

namespace Sys2Proof

/-- Why the decoder refuses. There is no illegal opcode and no illegal operand (30_encoding.md R102). -/
inductive DecodeError where
  /-- A selector byte or an operand byte lies at or beyond the end of the payload (20_memory.md R69). -/
  | payloadTooShort
deriving DecidableEq, Repr

/-- The opcode a nibble stands for (30_encoding.md R94). All 16 values are opcodes (R102). -/
def Opcode.ofNibble (v : Nibble) : Opcode :=
  match v.toNat with
  | 0 => .cph | 1 => .keep | 2 => .cpcf | 3 => .cpcb
  | 4 => .cphn | 5 => .cphw | 6 => .skip2 | 7 => .pat2
  | 8 => .pat2q | 9 => .pat4 | 10 => .pat4q | 11 => .raw
  | 12 => .raw2 | 13 => .raw4 | 14 => .fill | _ => .dith

/-- The nibble of an opcode (30_encoding.md R94). -/
def Opcode.nibble : Opcode → Nibble
  | .cph => 0x0 | .keep => 0x1 | .cpcf => 0x2 | .cpcb => 0x3
  | .cphn => 0x4 | .cphw => 0x5 | .skip2 => 0x6 | .pat2 => 0x7
  | .pat2q => 0x8 | .pat4 => 0x9 | .pat4q => 0xA | .raw => 0xB
  | .raw2 => 0xC | .raw4 => 0xD | .fill => 0xE | .dith => 0xF

/-- The opcode of a form (30_encoding.md R94). -/
def Form.opcode : Form → Opcode
  | .cph => .cph | .keep => .keep | .cpcf => .cpcf | .cpcb => .cpcb
  | .cphn => .cphn | .cphw => .cphw | .skip2 => .skip2
  | .pat2Row | .pat2Cell => .pat2
  | .pat2qQuad | .pat2qLr | .pat2qTb => .pat2q
  | .pat4U1x1 | .pat4U2x2 | .pat4U2x1 | .pat4U1x2 => .pat4
  | .pat4qQuad | .pat4qLr | .pat4qTb => .pat4q
  | .raw => .raw | .raw2 => .raw2 | .raw4 => .raw4 | .fill => .fill | .dith => .dith

/-- `n`, the payload length of a form (30_encoding.md R97, with the corrections 90_conflicts.md C1, C2). -/
def Form.length : Form → Nat
  | .cph => 0 | .keep => 0 | .cpcf => 1 | .cpcb => 1 | .cphn => 1 | .cphw => 2 | .skip2 => 0
  | .pat2Row => 10 | .pat2Cell => 4
  | .pat2qQuad => 16 | .pat2qLr => 12 | .pat2qTb => 12
  | .pat4U1x1 => 20 | .pat4U2x2 => 8 | .pat4U2x1 => 12 | .pat4U1x2 => 12
  | .pat4qQuad => 32 | .pat4qLr => 24 | .pat4qTb => 24
  | .raw => 64 | .raw2 => 16 | .raw4 => 4 | .fill => 1 | .dith => 2

/-- The form of an instruction. -/
def Instr.form : Instr → Form
  | .cph => .cph | .keep => .keep | .cpcf _ => .cpcf | .cpcb _ => .cpcb
  | .cphn _ _ => .cphn | .cphw _ _ => .cphw | .skip2 => .skip2
  | .pat2Row _ => .pat2Row | .pat2Cell _ => .pat2Cell
  | .pat2qQuad _ => .pat2qQuad | .pat2qLr _ => .pat2qLr | .pat2qTb _ => .pat2qTb
  | .pat4U1x1 _ => .pat4U1x1 | .pat4U2x2 _ => .pat4U2x2
  | .pat4U2x1 _ => .pat4U2x1 | .pat4U1x2 _ => .pat4U1x2
  | .pat4qQuad _ => .pat4qQuad | .pat4qLr _ => .pat4qLr | .pat4qTb _ => .pat4qTb
  | .raw _ => .raw | .raw2 _ => .raw2 | .raw4 _ => .raw4 | .fill _ => .fill | .dith _ _ => .dith

/-- `le(i, j)` of 30_encoding.md R96: `d[i] <= d[j]`, unsigned (92_eei_decisions.md D20). No answer where one of the two
bytes cannot be read. -/
def byteLe (p : List Byte) (i j : Nat) : Option Bool :=
  match p[i]?, p[j]? with
  | some a, some b => some (decide (a ≤ b))
  | _, _ => none

/-- The form `d[0..]` selects for an opcode (30_encoding.md R96), reading the selector bytes in the order written there;
no answer where a selector byte the choice needs cannot be read. -/
def formOf (op : Opcode) (p : List Byte) : Option Form :=
  match op with
  | .cph => some .cph | .keep => some .keep | .cpcf => some .cpcf | .cpcb => some .cpcb
  | .cphn => some .cphn | .cphw => some .cphw | .skip2 => some .skip2
  | .pat2 =>
    match byteLe p 0 1 with
    | some true => some .pat2Row
    | some false => some .pat2Cell
    | none => none
  | .pat2q =>
    match byteLe p 0 1 with
    | some true => some .pat2qQuad
    | some false =>
      match byteLe p 6 7 with
      | some true => some .pat2qLr
      | some false => some .pat2qTb
      | none => none
    | none => none
  | .pat4 =>
    match byteLe p 0 1, byteLe p 2 3 with
    | some true, some true => some .pat4U1x1
    | some true, some false => some .pat4U2x2
    | some false, some true => some .pat4U2x1
    | some false, some false => some .pat4U1x2
    | _, _ => none
  | .pat4q =>
    match byteLe p 0 1 with
    | some true => some .pat4qQuad
    | some false =>
      match byteLe p 12 13 with
      | some true => some .pat4qLr
      | some false => some .pat4qTb
      | none => none
    | none => none
  | .raw => some .raw | .raw2 => some .raw2 | .raw4 => some .raw4
  | .fill => some .fill | .dith => some .dith

/-- The first `n` bytes of the payload and what follows them; no answer where there are fewer. -/
def takeBytes (n : Nat) (p : List Byte) : Option (Vector Byte n × List Byte) :=
  if h : n ≤ p.length then some (⟨(p.take n).toArray, by simp [h]⟩, p.drop n) else none

/-- The low and the high nibble of a byte (00_scope.md R6). -/
def lowNibble (b : Byte) : Nibble := b.extractLsb' 0 4
@[inherit_doc lowNibble] def highNibble (b : Byte) : Nibble := b.extractLsb' 4 4

/-- The instruction of a form whose operands stand at the head of `p`, laid out as 30_encoding.md R95 says, with the bytes
left over; no answer where the payload ends first. -/
def readOperands (f : Form) (p : List Byte) : Option (Instr × List Byte) :=
  match f with
  | .cph => some (.cph, p)
  | .keep => some (.keep, p)
  | .cpcf => (takeBytes 1 p).map fun (d, r) => (.cpcf d[0], r)
  | .cpcb => (takeBytes 1 p).map fun (d, r) => (.cpcb d[0], r)
  | .cphn => (takeBytes 1 p).map fun (d, r) => (.cphn (lowNibble d[0]) (highNibble d[0]), r)
  | .cphw => (takeBytes 2 p).map fun (d, r) => (.cphw d[0] d[1], r)
  | .skip2 => some (.skip2, p)
  | .pat2Row => (takeBytes 10 p).map fun (d, r) => (.pat2Row d, r)
  | .pat2Cell => (takeBytes 4 p).map fun (d, r) => (.pat2Cell d, r)
  | .pat2qQuad => (takeBytes 16 p).map fun (d, r) => (.pat2qQuad d, r)
  | .pat2qLr => (takeBytes 12 p).map fun (d, r) => (.pat2qLr d, r)
  | .pat2qTb => (takeBytes 12 p).map fun (d, r) => (.pat2qTb d, r)
  | .pat4U1x1 => (takeBytes 20 p).map fun (d, r) => (.pat4U1x1 d, r)
  | .pat4U2x2 => (takeBytes 8 p).map fun (d, r) => (.pat4U2x2 d, r)
  | .pat4U2x1 => (takeBytes 12 p).map fun (d, r) => (.pat4U2x1 d, r)
  | .pat4U1x2 => (takeBytes 12 p).map fun (d, r) => (.pat4U1x2 d, r)
  | .pat4qQuad => (takeBytes 32 p).map fun (d, r) => (.pat4qQuad d, r)
  | .pat4qLr => (takeBytes 24 p).map fun (d, r) => (.pat4qLr d, r)
  | .pat4qTb => (takeBytes 24 p).map fun (d, r) => (.pat4qTb d, r)
  | .raw => (takeBytes 64 p).map fun (d, r) => (.raw d, r)
  | .raw2 => (takeBytes 16 p).map fun (d, r) => (.raw2 d, r)
  | .raw4 => (takeBytes 4 p).map fun (d, r) => (.raw4 d, r)
  | .fill => (takeBytes 1 p).map fun (d, r) => (.fill d[0], r)
  | .dith => (takeBytes 2 p).map fun (d, r) => (.dith d[0] d[1], r)

/-- Decoding: the nibble, and the payload bytes that may still be read, give the instruction and the bytes left over, or
the refusal (30_encoding.md R90, R96, R97; 20_memory.md R69). -/
def decode (v : Nibble) (p : List Byte) : Except DecodeError (Instr × List Byte) :=
  match (formOf (Opcode.ofNibble v) p).bind fun f => readOperands f p with
  | some r => .ok r
  | none => .error .payloadTooShort

/-! ### The encoder -/

/-- The operand bytes of an instruction in stream order (30_encoding.md R95). -/
def operandBytes : Instr → List Byte
  | .cph => [] | .keep => [] | .skip2 => []
  | .cpcf b => [b] | .cpcb b => [b]
  | .cphn xn yn => [yn ++ xn]
  | .cphw x y => [x, y]
  | .pat2Row d => d.toList | .pat2Cell d => d.toList
  | .pat2qQuad d => d.toList | .pat2qLr d => d.toList | .pat2qTb d => d.toList
  | .pat4U1x1 d => d.toList | .pat4U2x2 d => d.toList
  | .pat4U2x1 d => d.toList | .pat4U1x2 d => d.toList
  | .pat4qQuad d => d.toList | .pat4qLr d => d.toList | .pat4qTb d => d.toList
  | .raw d => d.toList | .raw2 d => d.toList | .raw4 d => d.toList
  | .fill c => [c] | .dith c0 c1 => [c0, c1]

/-- Encoding: the map nibble and the operand bytes (30_encoding.md R90, R94, R95). -/
def encode (i : Instr) : Nibble × List Byte := (i.form.opcode.nibble, operandBytes i)

/-- A map byte from the opcodes of a block pair: the left block in the low nibble (30_encoding.md R91). -/
def packMapByte (left right : Nibble) : Byte := right ++ left

/-! ### The opcode table's numbering of bits -/

/-- The number of operand bytes of the longest form, `RAW` (30_encoding.md R97). -/
def maxOperands : Nat := 64

/-- The bits of one instruction as the table numbers them: only the lowest `nbits` of `w` count, the rest are 0. -/
def tableWord (nbits w : Nat) : Nat := w % 2 ^ nbits

/-- Byte `k` of such a word: byte 0 holds the map nibble in its bits [3:0], byte `k + 1` is the operand byte `d[k]`
(log entry 10). -/
def tableByte (nbits w k : Nat) : Byte := BitVec.ofNat 8 (tableWord nbits w >>> (8 * k))

/-- The operand bytes `d[0..63]` of such a word. -/
def tableOperands (nbits w : Nat) : List Byte :=
  (List.range maxOperands).map fun k => tableByte nbits w (k + 1)

/-- What the decoder reads from an instruction whose bits are `w`, numbered as spec/opcode_table.json numbers them. -/
def decodeTableWord (nbits w : Nat) : Option Instr :=
  match decode (lowNibble (tableByte nbits w 0)) (tableOperands nbits w) with
  | .ok (i, _) => some i
  | .error _ => none

end Sys2Proof
end

