-- ==== Sys2Proof/Config.lean ====
section
/-! DEFINITION. What the spec leaves open, as free values: constants with no body, so that no proof can see what they
are. 93_implementation_defined.md U1 and U2 call each of them `any value`. -/

namespace Sys2Proof

/-- The four address spaces of 20_memory.md R60. They are distinct (R78). -/
inductive Space where
  | cur | hist | map | pay
deriving DecidableEq, Repr

/-- FREE VALUE. What a byte that nobody has written reads as: "a draw made once before `START` and stable thereafter"
(93_implementation_defined.md U1). It depends on which power-up this is, the space and the index (log entries 1, 2). -/
opaque Config.unwrittenByte : Nat → Space → Nat → Byte

/-- FREE VALUE. What a read of `STATUS` (all bits but `BUSY`) or of registers 6 to 10 gives while `BUSY = 1`: "`any
value` (a draw per read)" (93_implementation_defined.md U2). The argument is the number of the draw (log entry 4). -/
opaque Config.busyRead : Nat → BitVec 64

end Sys2Proof
end

