-- ==== Sys2Proof/Machine/State.lean ====
section
/-! DEFINITION. The state of the machine as 10_state.md R20 lists it, the host's turns, and the state after reset (R38). -/

namespace Sys2Proof.Machine

/-- One address space: (index, byte) pairs, indices strictly rising. An index that is not listed was never written; what
it reads as is `Memory.read` (log entry 1). -/
abbrev Memory := List Host.Cell

/-- The three kinds of diagnostic record (60_exceptions.md R260, R266). -/
inductive DiagKind where
  /-- kind 1: some `CUR` write of the dispatch was suppressed. -/
  | wrOob
  /-- kind 2: some copy source index of the dispatch was outside the buffer. -/
  | srcOob
  /-- kind 3: `WC >= FRAME` after the dispatch. -/
  | wcOob
deriving DecidableEq, Repr

/-- One record of the diagnostic stream (60_exceptions.md R266). -/
structure DiagRecord where
  kind : DiagKind
  op : Nibble
  blockX : Nat
  blockY : Nat
  wc : Nat
deriving DecidableEq, Repr

/-- One turn of the host (00_scope.md R10). A turn lands between two dispatches (40_walker_dispatch.md R123). -/
inductive HostTurn where
  /-- The host does nothing: the decoder takes one step. -/
  | pass
  /-- A write of a word to a register number at the register port (10_state.md R21, R23; 40_walker_dispatch.md R120). -/
  | writeReg (number : Nat) (value : BitVec 64)
  /-- A read of a register number at the register port (10_state.md R21, R40). -/
  | readReg (number : Nat)
  /-- A write of one byte of a memory (20_memory.md R75, 70_reset_and_hazards.md R302). -/
  | writeMem (space : Space) (index : Nat) (value : Byte)
  /-- A read of one byte of a memory (20_memory.md R75, 70_reset_and_hazards.md R305, R307). -/
  | readMem (space : Space) (index : Nat)
  /-- The reset input (70_reset_and_hazards.md R300). -/
  | reset
deriving DecidableEq, Repr

/-- The whole state. The working registers hold exact integers: 10_state.md R22 shows that none leaves its width, and
lets a model "use unbounded integers for all five working registers without departing from the hardware" (log entry 5). -/
structure State where
  /-- Register 0, R21. -/
  width : BitVec 16
  /-- Register 1, R21. -/
  height : BitVec 16
  /-- Register 2, `PAY_LEN`, R21. -/
  payLen : BitVec 32
  /-- Register 3, `PAY_REM`, two's complement, R21. -/
  payRem : BitVec 32
  /-- Register 6, `WC`, the write cursor, R25. -/
  wc : Nat
  /-- Register 7, `BX`, the block column, R26. -/
  blockX : Nat
  /-- Register 8, `BY`, the block row, R26. -/
  blockY : Nat
  /-- Register 9, `DP`, the payload read index, R28. -/
  dp : Nat
  /-- Register 10, `DR`, the remaining-length counter, R29. -/
  dr : Int
  /-- Register 5, `STATUS`, R30. -/
  status : BitVec 10
  /-- Register 11, `FAULT_OP`, R31. -/
  faultOp : Nibble
  /-- Register 12, `FAULT_BX`, R31. -/
  faultX : Nat
  /-- Register 13, `FAULT_BY`, R31. -/
  faultY : Nat
  /-- Register 14, `FAULT_DP`, R31. -/
  faultDp : Nat
  /-- The hidden latch `wr_oob`, R32. -/
  wrOob : Bool
  /-- The hidden latch `src_oob`, R32. -/
  srcOob : Bool
  /-- `CUR`, R35. -/
  cur : Memory
  /-- `HIST`, R35. -/
  hist : Memory
  /-- `MAP`, R35. -/
  map : Memory
  /-- `PAY`, R35. -/
  pay : Memory
  /-- `DIAG`, oldest record first, R36. -/
  diag : List DiagRecord
  /-- The MODEL's own: the host's turns still to come, next first (log entry 3). -/
  host : List HostTurn
  /-- The MODEL's own: what the last host read returned (log entry 8). -/
  readData : BitVec 64
  /-- The MODEL's own: which draw of the unwritten memory bytes this is (log entry 2). -/
  powerUp : Nat
  /-- The MODEL's own: how many draws for register reads while busy were made (log entry 4). -/
  draws : Nat
deriving DecidableEq, Repr

/-- Why the machine stops. No dispatch ever does: the decoder's own exception, `PayloadOverrun`, is a next state
(60_exceptions.md R261). -/
inductive Fault where
  /-- Raised by a host access at an index of 2^32 or above, which no space has under any configuration: `FRAME`,
  `MAPLEN` and `PAY_LEN` are all below 2^32 (00_scope.md R5). Safe (log entry 7). -/
  | hostIndexOutOfSpace
deriving DecidableEq, Repr

/-- Where the model gives no meaning. -/
inductive Refusal where
  /-- An instruction without a meaning in this model. No arm of `exec` raises it. Safe. -/
  | notModelled (mnemonic : String)
  /-- Raised by a host turn that writes a memory, or reads `CUR`, while `BUSY = 1`: 93_implementation_defined.md U3 says
  `refuse`. Safe for the decoder, and a host assumption (log entry 6). -/
  | hostMemoryWhileBusy
deriving DecidableEq, Repr

/-- The machine right after hardware reset (10_state.md R38): every register, latch and `STATUS` 0. Reset does not touch
the memories: here nobody has written them yet. The model's own fields start at values of the model (log entries 2, 3,
4, 8). -/
def State.reset : State where
  width := 0
  height := 0
  payLen := 0
  payRem := 0
  wc := 0
  blockX := 0
  blockY := 0
  dp := 0
  dr := 0
  status := 0
  faultOp := 0
  faultX := 0
  faultY := 0
  faultDp := 0
  wrOob := false
  srcOob := false
  cur := []
  hist := []
  map := []
  pay := []
  diag := []
  host := []
  readData := 0
  powerUp := 0
  draws := 0

end Sys2Proof.Machine
end

