-- ==== Sys2Proof/Machine/Flags.lean ====
section
/-! DEFINITION. The `STATUS` word, the diagnostic stream and the checks at the end of a dispatch: every flag computation
of the spec (10_state.md R30, R37; 40_walker_dispatch.md R125; 60_exceptions.md R265 to R268). -/

namespace Sys2Proof.Machine

/-- The ten defined bits of `STATUS` (10_state.md R30). -/
inductive Flag where
  | busy | done | fail | early | cfgErr | payOvr | wcOob | wrOob | srcOob | remNeg
deriving DecidableEq, Repr

/-- The bit number of a flag (10_state.md R30). -/
def Flag.bit : Flag → Nat
  | .busy => 0 | .done => 1 | .fail => 2 | .early => 3 | .cfgErr => 4
  | .payOvr => 5 | .wcOob => 6 | .wrOob => 7 | .srcOob => 8 | .remNeg => 9

/-- The value of a flag. -/
def State.flag (s : State) (f : Flag) : Bool := s.status.getLsbD f.bit

/-- Set one flag, leaving the other bits alone. -/
def State.setFlag (s : State) (f : Flag) : State :=
  { s with status := s.status ||| BitVec.twoPow 10 f.bit }

/-- Clear one flag, leaving the other bits alone. -/
def State.clearFlag (s : State) (f : Flag) : State :=
  { s with status := s.status &&& ~~~ BitVec.twoPow 10 f.bit }

/-- The completion line: `irq = STATUS.DONE or STATUS.FAIL` (10_state.md R37, 60_exceptions.md R272). -/
def State.irq (s : State) : Bool := s.flag .done || s.flag .fail

/-- `W`, `H`: the values of `WIDTH` and `HEIGHT` (00_scope.md R5). -/
def State.w (s : State) : Nat := s.width.toNat
@[inherit_doc State.w] def State.h (s : State) : Nat := s.height.toNat

/-- `NBX`, blocks per block-row (00_scope.md R5). -/
def State.nbx (s : State) : Nat := s.w / 8

/-- `NBY`, block-rows (00_scope.md R5). -/
def State.nby (s : State) : Nat := s.h / 8

/-- `FRAME`, the size of a frame buffer in bytes (00_scope.md R5). -/
def State.frame (s : State) : Nat := s.w * s.h

/-- `MAPLEN`, the length of the opcode map in bytes (00_scope.md R5). -/
def State.mapLen (s : State) : Nat := s.nbx * s.nby / 2

/-- Legal configuration (10_state.md R24). -/
def State.legal (s : State) : Bool :=
  s.w != 0 && s.w % 16 == 0 && s.h != 0 && s.h % 8 == 0

/-- The `kind` field of a record as the 2-bit code (60_exceptions.md R266). -/
def DiagKind.code : DiagKind → BitVec 2
  | .wrOob => 1 | .srcOob => 2 | .wcOob => 3

/-- `diag(kind, op, BX, BY, WC)`: append one record (60_exceptions.md R265, R266). -/
def State.emit (s : State) (kind : DiagKind) (op : Nibble) : State :=
  { s with diag := s.diag ++ [⟨kind, op, s.blockX, s.blockY, s.wc⟩] }

/-- R267, first line: the `WR_OOB` diagnostic. -/
def noteWrOob (op : Nibble) (s : State) : State :=
  if s.wrOob then (s.setFlag .wrOob).emit .wrOob op else s

/-- R267, second line: the `SRC_OOB` diagnostic. -/
def noteSrcOob (op : Nibble) (s : State) : State :=
  if s.srcOob then (s.setFlag .srcOob).emit .srcOob op else s

/-- R267, third line, and 40_walker_dispatch.md R125: the informational flag `REM_NEG`. -/
def noteRemNeg (s : State) : State :=
  if s.dr < 0 then s.setFlag .remNeg else s

/-- R268: the write-cursor bounds check. -/
def noteWcOob (op : Nibble) (s : State) : State :=
  if s.frame ≤ s.wc then (s.setFlag .wcOob).emit .wcOob op else s

/-- The end-of-dispatch diagnostics in the order of R267 and R269. -/
def endOfBody (op : Nibble) (s : State) : State :=
  noteRemNeg (noteSrcOob op (noteWrOob op s))

/-- The early end of a frame (40_walker_dispatch.md R128): no write-cursor check, no walker advance. -/
def endEarly (s : State) : State :=
  ((s.setFlag .early).setFlag .done).clearFlag .busy

/-- The normal end of a frame (40_walker_dispatch.md R127). -/
def endNormal (s : State) : State :=
  (s.setFlag .done).clearFlag .busy

end Sys2Proof.Machine
end

