-- ==== Sys2Proof/Machine/Memory.lean ====
section
/-! DEFINITION. Memory as a list of cells: reading and writing one byte, and the canonical form. Only single-byte
accesses exist (20_memory.md R70 to R72). -/

namespace Sys2Proof.Machine

/-- The byte listed at an index, if the index was ever written. -/
def Memory.find : Memory → Nat → Option Byte
  | [], _ => none
  | (b, v) :: rest, a => if a = b then some v else Memory.find rest a

/-- Write one byte: the entry of the index takes the value, or a new entry is put in its place in the order. -/
def Memory.write : Memory → Nat → Byte → Memory
  | [], a, v => [(a, v)]
  | (b, w) :: rest, a, v =>
    if a < b then (a, v) :: (b, w) :: rest
    else if a = b then (a, v) :: rest
    else (b, w) :: Memory.write rest a v

/-- What an index reads as: the last value written to it (20_memory.md R72), and where nobody has written it the free
value of 93_implementation_defined.md U1 (log entry 1). -/
def Memory.read (powerUp : Nat) (space : Space) (m : Memory) (a : Nat) : Byte :=
  (Memory.find m a).getD (Config.unwrittenByte powerUp space a)

/-- Every index of a space is below this bound, whatever the configuration (00_scope.md R5; log entry 7). -/
def spaceBound : Nat := 2 ^ 32

/-- The indices rise strictly, all from `low` on and below the bound of every space. -/
def Memory.wfFrom (low : Nat) : Memory → Bool
  | [] => true
  | (a, _) :: rest => decide (low ≤ a) && decide (a < spaceBound) && Memory.wfFrom (a + 1) rest

/-- The canonical form: indices strictly rising, each at most once, each below the bound of every space. An unlisted
index has no byte of its own, so no entry can equal what it reads as (log entry 1). -/
def Memory.wf (m : Memory) : Bool := Memory.wfFrom 0 m

end Sys2Proof.Machine
end

