-- ==== Sys2Proof/Machine/Ops.lean ====
section
/-! DEFINITION. The named operations every meaning is written with: the checked accesses of the `buffer_write_controller`,
the `bitstream_cursor`, the exception `PayloadOverrun`, and the dispatch step around an opcode's body (20_memory.md R62
to R69; 40_walker_dispatch.md R123, R124; 60_exceptions.md R261). -/

namespace Sys2Proof.Machine

/-! ### Accesses -/

/-- `MemRead(CUR, a, 1)`. -/
def State.curByte (s : State) (a : Nat) : Byte := Memory.read s.powerUp .cur s.cur a

/-- `MemRead(HIST, a, 1)`. -/
def State.histByte (s : State) (a : Nat) : Byte := Memory.read s.powerUp .hist s.hist a

/-- `MapByte(i)` (20_memory.md R62): no check. -/
def State.mapByte (s : State) (i : Nat) : Byte := Memory.read s.powerUp .map s.map i

/-- `MemRead(PAY, j, 1)`: the byte at payload index `j`, whatever `PAY_LEN` says. -/
def State.payByte (s : State) (j : Nat) : Byte := Memory.read s.powerUp .pay s.pay j

/-- `CurWrite(a, v)` (20_memory.md R64): in range the byte is written, else the write is suppressed and `wr_oob` set.
Every write index of the rules is `WC` plus something, so it is never negative. -/
def curWrite (a : Nat) (v : Byte) (s : State) : State :=
  if a < s.frame then { s with cur := Memory.write s.cur a v } else { s with wrOob := true }

/-- The value `CurRead(a)` gives (20_memory.md R65); `none` is not a byte. -/
def curRead (s : State) (a : Int) : Option Byte :=
  if 0 ≤ a ∧ a < (s.frame : Int) then some (s.curByte a.toNat) else none

/-- The value `HistRead(a)` gives (20_memory.md R65). -/
def histRead (s : State) (a : Int) : Option Byte :=
  if 0 ≤ a ∧ a < (s.frame : Int) then some (s.histByte a.toNat) else none

/-- A list of `CurWrite` calls, made in order. -/
def curWrites (ws : List (Nat × Byte)) (s : State) : State :=
  ws.foldl (fun t p => curWrite p.1 p.2 t) s

/-- `A(r, c) = WC + r*W + c` (00_scope.md R9). -/
def State.pixelIndex (s : State) (r c : Nat) : Nat := s.wc + r * s.w + c

/-! ### The bitstream cursor -/

/-- `Consume(n)` (20_memory.md R68). -/
def consume (n : Nat) (s : State) : State := { s with dp := s.dp + n, dr := s.dr - n }

/-- The common advance `WC <- WC + 8` (40_walker_dispatch.md R124). -/
def advanceBlock (s : State) : State := { s with wc := s.wc + 8 }

/-- The start of every dispatch: `wr_oob <- 0; src_oob <- 0` (40_walker_dispatch.md R123). -/
def clearLatches (s : State) : State := { s with wrOob := false, srcOob := false }

/-! ### Taking the exception -/

/-- `raise PayloadOverrun(op, BX, BY, DP)` (60_exceptions.md R261, R270; 10_state.md R31): the fault record takes the
opcode, the block and the payload index, `PAY_OVR` and `FAIL` are set, `BUSY` falls, and nothing else changes. Control
goes nowhere: there is no handler and no vector. There is no return from it: only a new `START` (R271), which is
`startFrame` in Machine/HostPort.lean. -/
def raisePayloadOverrun (op : Nibble) (s : State) : State :=
  (({ s with faultOp := op, faultX := s.blockX, faultY := s.blockY, faultDp := s.dp }.setFlag .payOvr).setFlag
    .fail).clearFlag .busy

/-! ### The dispatch step -/

/-- The dispatch of a form other than `SKIP2` (40_walker_dispatch.md R123): the length check, the opcode's body, the common
advance, `Consume(n)`, then the checks of 60_exceptions.md R267 and R268. A form with `n = 0` cannot raise
`PayloadOverrun` (R261; log entry 9). The latches are cleared first, as in R123: the exception replaces "the rest of the
dispatch step" (R261). -/
def dispatch (f : Form) (execute : State → State) (s : State) : Host.Outcome State Fault Refusal :=
  if 0 < f.length ∧ s.payLen.toNat < s.dp + f.length then
    .next (raisePayloadOverrun f.opcode.nibble (clearLatches s))
  else
    .next (noteWcOob f.opcode.nibble (endOfBody f.opcode.nibble
      (consume f.length (advanceBlock (execute (clearLatches s))))))

end Sys2Proof.Machine
end

