-- ==== Sys2Proof/Machine/Operands.lean ====
section
/-! DEFINITION. Operand forms: the three kinds of copy offset (30_encoding.md R98 to R100), selector words and selectors
(41_pattern_unpacker.md R151, R152), the fill units of the `pattern_unpacker` (R153 to R161) and the block copy
(42_copy_ops.md R170). A unit of the unpacker is the list of its `CurWrite` calls: "its only effect" (R150). -/

namespace Sys2Proof.Machine

/-! ### Copy offsets -/

/-- The far offset code, 30_encoding.md R98: `(fx, fy)`. -/
def farOffset (b : Byte) : Int × Int :=
  let n := b.toNat
  if n < 56 then (8 + (n % 7 : Nat), (n / 7 : Nat))
  else (-14 + ((n - 56) % 29 : Nat), 8 + ((n - 56) / 29 : Nat))

/-- The near offset, 30_encoding.md R99: a nibble minus 8 (92_eei_decisions.md D14). -/
def nearOffset (v : Nibble) : Int := (v.toNat : Int) - 8

/-- `sext_8` (00_scope.md R7), the wide offset of 30_encoding.md R100 (92_eei_decisions.md D15). -/
def wideOffset (b : Byte) : Int := b.toInt

/-- The index displacement of an offset of `x` pixels right and `y` pixel-rows down: `x + y*W` (42_copy_ops.md R170). -/
def displacement (s : State) (x y : Int) : Int := x + y * (s.w : Int)

/-! ### Selectors -/

/-- `word(B0, B1)` (41_pattern_unpacker.md R151): the earlier byte is less significant. -/
def word2 (b0 b1 : Byte) : BitVec 16 := b1 ++ b0

/-- `word(B0, B1, B2, B3)` (41_pattern_unpacker.md R151). -/
def word4 (b0 b1 b2 b3 : Byte) : BitVec 32 := b3 ++ b2 ++ b1 ++ b0

/-- `Sel_s(w, k)`: the `s` selector bits of unit `k` (41_pattern_unpacker.md R152). -/
def selector {m : Nat} (s : Nat) (w : BitVec m) (k : Nat) : BitVec s := w.extractLsb' (s * k) s

/-- Two candidate colours: "bit set ⇒ `P1`, clear ⇒ `P0`" (41_pattern_unpacker.md R152). -/
def colours2 (p0 p1 : Byte) (v : BitVec 1) : Byte := if v = 1 then p1 else p0

/-- Four candidate colours: selector value `v` picks `Pv` (41_pattern_unpacker.md R152; 92_eei_decisions.md D19). -/
def colours4 (p0 p1 p2 p3 : Byte) (v : BitVec 2) : Byte :=
  if v = 0 then p0 else if v = 1 then p1 else if v = 2 then p2 else p3

/-! ### Fill units: lists of `CurWrite` calls, `w` being the frame width -/

/-- `Fill(a, uw, uh, v)` (41_pattern_unpacker.md R153). -/
def fillUnit (w a uw uh : Nat) (v : Byte) : List (Nat × Byte) :=
  (List.range uh).flatMap fun i => (List.range uw).map fun j => (a + i * w + j, v)

/-- `Run(a, m, uw, uh, s, col, word)` (41_pattern_unpacker.md R154). -/
def runUnits {b : Nat} (w a m uw uh s : Nat) (col : BitVec s → Byte) (word : BitVec b) : List (Nat × Byte) :=
  (List.range m).flatMap fun k => fillUnit w (a + k * uw) uw uh (col (selector s word k))

/-- Variant 1x1 (41_pattern_unpacker.md R155). -/
def pu1x1 {b : Nat} (w a m s : Nat) (col : BitVec s → Byte) (word : BitVec b) : List (Nat × Byte) :=
  runUnits w a m 1 1 s col word

/-- Variant 2x1: two pixels wide, one high (41_pattern_unpacker.md R156; 92_eei_decisions.md D16). -/
def pu2x1 {b : Nat} (w a s : Nat) (col : BitVec s → Byte) (word : BitVec b) : List (Nat × Byte) :=
  runUnits w a 4 2 1 s col word

/-- Variant 1x2: one pixel wide, two high (41_pattern_unpacker.md R157; 92_eei_decisions.md D16). -/
def pu1x2 {b : Nat} (w a s : Nat) (col : BitVec s → Byte) (word : BitVec b) : List (Nat × Byte) :=
  runUnits w a 8 1 2 s col word

/-- Variant 2x2 (41_pattern_unpacker.md R158). -/
def pu2x2 {b : Nat} (w a s : Nat) (col : BitVec s → Byte) (word : BitVec b) : List (Nat × Byte) :=
  runUnits w a 4 2 2 s col word

/-- A 4x4 quadrant with a selector per pixel (41_pattern_unpacker.md R159). -/
def quadUnit {b : Nat} (w a s : Nat) (col : BitVec s → Byte) (word : BitVec b) : List (Nat × Byte) :=
  (List.range 4).flatMap fun i => pu1x1 w (a + i * w) 4 s col (word >>> (4 * s * i))

/-- Variant 4x4: one colour (41_pattern_unpacker.md R160). -/
def pu4x4 (w a : Nat) (v : Byte) : List (Nat × Byte) := fillUnit w a 4 4 v

/-- The loop indices 0, 1; 0 .. 3; 0 .. 7 of the rules' `for` loops, with their bounds. -/
def upTo2 : List (Fin 2) := [0, 1]
@[inherit_doc upTo2] def upTo4 : List (Fin 4) := [0, 1, 2, 3]
@[inherit_doc upTo2] def upTo8 : List (Fin 8) := [0, 1, 2, 3, 4, 5, 6, 7]

/-! ### The block copy -/

/-- One byte of `BlockCopy` (42_copy_ops.md R170): the read, and at once its write. A source index outside the buffer
makes no access, sets `src_oob` (20_memory.md R65) and leaves the destination byte alone. -/
def copyByte (src : State → Int → Option Byte) (off : Int) (r c : Nat) (s : State) : State :=
  match src s ((s.pixelIndex r c : Int) + off) with
  | some v => curWrite (s.pixelIndex r c) v s
  | none => { s with srcOob := true }

/-- The 64 block coordinates in row-major order (42_copy_ops.md R170; 92_eei_decisions.md D10). -/
def blockPixels : List (Nat × Nat) :=
  (List.range 8).flatMap fun r => (List.range 8).map fun c => (r, c)

/-- `BlockCopy(Src, off)` (42_copy_ops.md R170): the accesses in exactly this order. -/
def blockCopy (src : State → Int → Option Byte) (off : Int) (s : State) : State :=
  blockPixels.foldl (fun t p => copyByte src off p.1 p.2 t) s

end Sys2Proof.Machine
end

