-- ==== Sys2Proof/Machine/Copy.lean ====
section
/-! DEFINITION. The copy opcodes 0x0 to 0x5 (42_copy_ops.md R170 to R177). -/

namespace Sys2Proof.Machine

/-- 0x0 `CPH`, R171: copy the block from `HIST`, same position. -/
def execCph (s : State) : Host.Outcome State Fault Refusal :=
  dispatch .cph (fun t => blockCopy histRead 0 t) s

/-- 0x1 `KEEP`, R172: no pixel change. -/
def execKeep (s : State) : Host.Outcome State Fault Refusal :=
  dispatch .keep (fun t => t) s

/-- 0x2 `CPCF`, R173: copy from `CUR` at the far offset. -/
def execCpcf (b : Byte) (s : State) : Host.Outcome State Fault Refusal :=
  dispatch .cpcf (fun t => blockCopy curRead (displacement t (farOffset b).1 (farOffset b).2) t) s

/-- 0x3 `CPCB`, R174: copy from `CUR` at the negated far offset. -/
def execCpcb (b : Byte) (s : State) : Host.Outcome State Fault Refusal :=
  dispatch .cpcb (fun t => blockCopy curRead (displacement t (-(farOffset b).1) (-(farOffset b).2)) t) s

/-- 0x4 `CPHN`, R175: copy from `HIST` at the near offset, `x` the low nibble, `y` the high one. -/
def execCphn (xn yn : Nibble) (s : State) : Host.Outcome State Fault Refusal :=
  dispatch .cphn (fun t => blockCopy histRead (displacement t (nearOffset xn) (nearOffset yn)) t) s

/-- 0x5 `CPHW`, R176: copy from `HIST` at the wide offset. -/
def execCphw (x y : Byte) (s : State) : Host.Outcome State Fault Refusal :=
  dispatch .cphw (fun t => blockCopy histRead (displacement t (wideOffset x) (wideOffset y)) t) s

end Sys2Proof.Machine
end

