-- ==== Sys2Proof/Machine/FourColour.lean ====
section
/-! DEFINITION. The four-colour pattern opcodes 0x9 and 0xA (45_four_colour_ops.md R220 to R228). -/

namespace Sys2Proof.Machine

/-- 0x9 `PAT4.U1x1`, R220: one 2-bit selector per pixel, two pattern bytes per pixel-row. -/
def execPat4U1x1 (d : Vector Byte 20) (s : State) : Host.Outcome State Fault Refusal :=
  dispatch .pat4U1x1 (fun t => curWrites
    (upTo8.flatMap fun r =>
      pu1x1 t.w (t.wc + r.val * t.w) 8 2 (colours4 d[0] d[1] d[2] d[3])
        (word2 d[4 + 2 * r.val] d[5 + 2 * r.val])) t) s

/-- 0x9 `PAT4.U2x2`, R221: one 2-bit selector per 2x2 cell. -/
def execPat4U2x2 (d : Vector Byte 8) (s : State) : Host.Outcome State Fault Refusal :=
  dispatch .pat4U2x2 (fun t => curWrites
    (upTo4.flatMap fun q =>
      pu2x2 t.w (t.wc + 2 * q.val * t.w) 2 (colours4 d[0] d[1] d[2] d[3]) d[4 + q.val]) t) s

/-- 0x9 `PAT4.U2x1`, R222: one 2-bit selector per unit two pixels wide and one high. -/
def execPat4U2x1 (d : Vector Byte 12) (s : State) : Host.Outcome State Fault Refusal :=
  dispatch .pat4U2x1 (fun t => curWrites
    (upTo8.flatMap fun r =>
      pu2x1 t.w (t.wc + r.val * t.w) 2 (colours4 d[0] d[1] d[2] d[3]) d[4 + r.val]) t) s

/-- 0x9 `PAT4.U1x2`, R223: one 2-bit selector per unit one pixel wide and two high. -/
def execPat4U1x2 (d : Vector Byte 12) (s : State) : Host.Outcome State Fault Refusal :=
  dispatch .pat4U1x2 (fun t => curWrites
    (upTo4.flatMap fun q =>
      pu1x2 t.w (t.wc + 2 * q.val * t.w) 2 (colours4 d[0] d[1] d[2] d[3])
        (word2 d[4 + 2 * q.val] d[5 + 2 * q.val])) t) s

/-- 0xA `PAT4Q.QUAD`, R225: four quadrants, each with its own four colours and 32-bit pattern. -/
def execPat4qQuad (d : Vector Byte 32) (s : State) : Host.Outcome State Fault Refusal :=
  dispatch .pat4qQuad (fun t => curWrites
    (upTo4.flatMap fun q =>
      quadUnit t.w (t.wc + 4 * (q.val % 2) * t.w + 4 * (q.val / 2)) 2
        (colours4 d[8 * q.val] d[8 * q.val + 1] d[8 * q.val + 2] d[8 * q.val + 3])
        (word4 d[8 * q.val + 4] d[8 * q.val + 5] d[8 * q.val + 6] d[8 * q.val + 7])) t) s

/-- 0xA `PAT4Q.LR`, R226: left and right half, two quadrant patterns each. -/
def execPat4qLr (d : Vector Byte 24) (s : State) : Host.Outcome State Fault Refusal :=
  dispatch .pat4qLr (fun t => curWrites
    (quadUnit t.w t.wc 2 (colours4 d[0] d[1] d[2] d[3]) (word4 d[4] d[5] d[6] d[7])
      ++ quadUnit t.w (t.wc + 4 * t.w) 2 (colours4 d[0] d[1] d[2] d[3]) (word4 d[8] d[9] d[10] d[11])
      ++ quadUnit t.w (t.wc + 4) 2 (colours4 d[12] d[13] d[14] d[15]) (word4 d[16] d[17] d[18] d[19])
      ++ quadUnit t.w (t.wc + 4 * t.w + 4) 2 (colours4 d[12] d[13] d[14] d[15])
          (word4 d[20] d[21] d[22] d[23])) t) s

/-- 0xA `PAT4Q.TB`, R227: top and bottom half, four two-byte row patterns each. -/
def execPat4qTb (d : Vector Byte 24) (s : State) : Host.Outcome State Fault Refusal :=
  dispatch .pat4qTb (fun t => curWrites
    ((upTo4.flatMap fun r =>
        pu1x1 t.w (t.wc + r.val * t.w) 8 2 (colours4 d[0] d[1] d[2] d[3])
          (word2 d[4 + 2 * r.val] d[5 + 2 * r.val]))
      ++ (upTo4.flatMap fun r =>
        pu1x1 t.w (t.wc + (4 + r.val) * t.w) 8 2 (colours4 d[12] d[13] d[14] d[15])
          (word2 d[16 + 2 * r.val] d[17 + 2 * r.val]))) t) s

end Sys2Proof.Machine
end

