-- ==== Sys2Proof/Machine/RawFill.lean ====
section
/-! DEFINITION. The raw and fill opcodes 0xB to 0xF (46_raw_fill_ops.md R240 to R244). -/

namespace Sys2Proof.Machine

/-- 0xB `RAW`, R240: 64 literal pixels, row-major. -/
def execRaw (d : Vector Byte 64) (s : State) : Host.Outcome State Fault Refusal :=
  dispatch .raw (fun t => curWrites
    (upTo8.flatMap fun r => upTo8.map fun c => (t.pixelIndex r.val c.val, d[8 * r.val + c.val])) t) s

/-- 0xC `RAW2`, R241: 16 literal 2x2 cells. -/
def execRaw2 (d : Vector Byte 16) (s : State) : Host.Outcome State Fault Refusal :=
  dispatch .raw2 (fun t => curWrites
    (upTo4.flatMap fun p => upTo4.flatMap fun q =>
      fillUnit t.w (t.wc + 2 * p.val * t.w + 2 * q.val) 2 2 d[4 * p.val + q.val]) t) s

/-- 0xD `RAW4`, R242: 4 literal 4x4 quadrants, row-band by row-band. -/
def execRaw4 (d : Vector Byte 4) (s : State) : Host.Outcome State Fault Refusal :=
  dispatch .raw4 (fun t => curWrites
    (upTo2.flatMap fun b =>
      pu4x4 t.w (t.wc + 4 * b.val * t.w) d[2 * b.val]
        ++ pu4x4 t.w (t.wc + 4 * b.val * t.w + 4) d[2 * b.val + 1]) t) s

/-- 0xE `FILL`, R243: one colour. -/
def execFill (c : Byte) (s : State) : Host.Outcome State Fault Refusal :=
  dispatch .fill (fun t => curWrites (fillUnit t.w t.wc 8 8 c) t) s

/-- 0xF `DITH`, R244: a checkerboard of two colours. -/
def execDith (c0 c1 : Byte) (s : State) : Host.Outcome State Fault Refusal :=
  dispatch .dith (fun t => curWrites
    (blockPixels.map fun p => (t.pixelIndex p.1 p.2, if (p.1 + p.2) % 2 = 0 then c0 else c1)) t) s

end Sys2Proof.Machine
end

