-- ==== Sys2Proof/Machine/Skip.lean ====
section
/-! DEFINITION. The skip opcode 0x6 (43_skip_op.md R190, R191). -/

namespace Sys2Proof.Machine

/-- One of the two steps of `skip2()` (43_skip_op.md R190): the write cursor and the private copies `cx`, `cy` of the block
cursor after it, and whether the frame is complete. -/
def skipStep (s : State) (wc cx cy : Nat) : Nat × Nat × Nat × Bool :=
  if cx + 1 = s.nbx then (wc + 8 + 7 * s.w, 0, cy + 1, decide (cy + 1 = s.nby))
  else (wc + 8, cx + 1, cy, false)

/-- `skip2()` (43_skip_op.md R190): the new write cursor and `early_end`. The second step is not taken once the frame is
complete. -/
def skip2 (s : State) : Nat × Bool :=
  match skipStep s s.wc s.blockX s.blockY with
  | (wc, _, _, true) => (wc, true)
  | (wc, cx, cy, false) =>
    match skipStep s wc cx cy with
    | (wc', _, _, early) => (wc', early)

/-- 0x6 `SKIP2`, R190: skip two blocks. It writes `WC` only; when the frame is complete the run ends at once
(40_walker_dispatch.md R128), without the check of 60_exceptions.md R268. -/
def execSkip2 (s : State) : Host.Outcome State Fault Refusal :=
  match skip2 s with
  | (wc, true) =>
    .next (endEarly (endOfBody Opcode.skip2.nibble { clearLatches s with wc := wc }))
  | (wc, false) =>
    .next (noteWcOob Opcode.skip2.nibble (endOfBody Opcode.skip2.nibble { clearLatches s with wc := wc }))

end Sys2Proof.Machine
end

