-- ==== Sys2Proof/Machine/TwoColour.lean ====
section
/-! DEFINITION. The two-colour pattern opcodes 0x7 and 0x8 (44_two_colour_ops.md R200 to R206). -/

namespace Sys2Proof.Machine

/-- 0x7 `PAT2.ROW`, R200: one selector bit per pixel, one pattern byte per pixel-row. -/
def execPat2Row (d : Vector Byte 10) (s : State) : Host.Outcome State Fault Refusal :=
  dispatch .pat2Row (fun t => curWrites
    (upTo8.flatMap fun r => pu1x1 t.w (t.wc + r.val * t.w) 8 1 (colours2 d[0] d[1]) d[2 + r.val]) t) s

/-- 0x7 `PAT2.CELL`, R201: one selector bit per 2x2 cell. -/
def execPat2Cell (d : Vector Byte 4) (s : State) : Host.Outcome State Fault Refusal :=
  dispatch .pat2Cell (fun t => curWrites
    ((List.range 4).flatMap fun q =>
      pu2x2 t.w (t.wc + 2 * q * t.w) 1 (colours2 d[0] d[1]) (word2 d[2] d[3] >>> (4 * q))) t) s

/-- 0x8 `PAT2Q.QUAD`, R203: four quadrants (top-left, bottom-left, top-right, bottom-right), each with its own colours. -/
def execPat2qQuad (d : Vector Byte 16) (s : State) : Host.Outcome State Fault Refusal :=
  dispatch .pat2qQuad (fun t => curWrites
    (upTo4.flatMap fun q =>
      quadUnit t.w (t.wc + 4 * (q.val % 2) * t.w + 4 * (q.val / 2)) 1
        (colours2 d[4 * q.val] d[4 * q.val + 1]) (word2 d[4 * q.val + 2] d[4 * q.val + 3])) t) s

/-- 0x8 `PAT2Q.LR`, R204: left and right half, two quadrant patterns each. -/
def execPat2qLr (d : Vector Byte 12) (s : State) : Host.Outcome State Fault Refusal :=
  dispatch .pat2qLr (fun t => curWrites
    (quadUnit t.w t.wc 1 (colours2 d[0] d[1]) (word2 d[2] d[3])
      ++ quadUnit t.w (t.wc + 4 * t.w) 1 (colours2 d[0] d[1]) (word2 d[4] d[5])
      ++ quadUnit t.w (t.wc + 4) 1 (colours2 d[6] d[7]) (word2 d[8] d[9])
      ++ quadUnit t.w (t.wc + 4 * t.w + 4) 1 (colours2 d[6] d[7]) (word2 d[10] d[11])) t) s

/-- 0x8 `PAT2Q.TB`, R205: top and bottom half, four row patterns each. -/
def execPat2qTb (d : Vector Byte 12) (s : State) : Host.Outcome State Fault Refusal :=
  dispatch .pat2qTb (fun t => curWrites
    ((upTo4.flatMap fun r => pu1x1 t.w (t.wc + r.val * t.w) 8 1 (colours2 d[0] d[1]) d[2 + r.val])
      ++ (upTo4.flatMap fun r =>
        pu1x1 t.w (t.wc + (4 + r.val) * t.w) 8 1 (colours2 d[6] d[7]) d[8 + r.val])) t) s

end Sys2Proof.Machine
end

