-- ==== Sys2Proof/Machine/Dispatch.lean ====
section
/-! DEFINITION. The `opcode_dispatcher`: one arm per instruction (40_walker_dispatch.md R123). `exec` is the dispatch with
its end-of-dispatch checks; the walker's advance stands in Machine/Sequencer.lean. -/

namespace Sys2Proof.Machine

-- One dispatch of one instruction (40_walker_dispatch.md R123; 60_exceptions.md R267, R268).
def exec (i : Instr) (s : State) : Host.Outcome State Fault Refusal :=
  match i with
  | .cph => Sys2Proof.Machine.execCph s
  | .keep => Sys2Proof.Machine.execKeep s
  | .cpcf b => Sys2Proof.Machine.execCpcf b s
  | .cpcb b => Sys2Proof.Machine.execCpcb b s
  | .cphn xn yn => Sys2Proof.Machine.execCphn xn yn s
  | .cphw x y => Sys2Proof.Machine.execCphw x y s
  | .skip2 => Sys2Proof.Machine.execSkip2 s
  | .pat2Row d => Sys2Proof.Machine.execPat2Row d s
  | .pat2Cell d => Sys2Proof.Machine.execPat2Cell d s
  | .pat2qQuad d => Sys2Proof.Machine.execPat2qQuad d s
  | .pat2qLr d => Sys2Proof.Machine.execPat2qLr d s
  | .pat2qTb d => Sys2Proof.Machine.execPat2qTb d s
  | .pat4U1x1 d => Sys2Proof.Machine.execPat4U1x1 d s
  | .pat4U2x2 d => Sys2Proof.Machine.execPat4U2x2 d s
  | .pat4U2x1 d => Sys2Proof.Machine.execPat4U2x1 d s
  | .pat4U1x2 d => Sys2Proof.Machine.execPat4U1x2 d s
  | .pat4qQuad d => Sys2Proof.Machine.execPat4qQuad d s
  | .pat4qLr d => Sys2Proof.Machine.execPat4qLr d s
  | .pat4qTb d => Sys2Proof.Machine.execPat4qTb d s
  | .raw d => Sys2Proof.Machine.execRaw d s
  | .raw2 d => Sys2Proof.Machine.execRaw2 d s
  | .raw4 d => Sys2Proof.Machine.execRaw4 d s
  | .fill c => Sys2Proof.Machine.execFill c s
  | .dith c0 c1 => Sys2Proof.Machine.execDith c0 c1 s

end Sys2Proof.Machine
end

