-- ==== Sys2Proof/Machine/Sequencer.lean ====
section
/-! DEFINITION. The `block_grid_walker`: fetching the opcode and its operand bytes, the advance after a dispatch, and one
step of the decoder (40_walker_dispatch.md R121 to R128; 20_memory.md R66, R69). -/

namespace Sys2Proof.Machine

/-- `MP = BY*(W/16) + BX/2`, the index of the map byte (10_state.md R27, 30_encoding.md R92). -/
def State.mapIndex (s : State) : Nat := s.blockY * (s.w / 16) + s.blockX / 2

/-- The opcode fetch (40_walker_dispatch.md R122): the low nibble for an even block column, the high one for an odd. -/
def fetchOpcode (s : State) : Nibble :=
  if s.blockX % 2 = 0 then lowNibble (s.mapByte s.mapIndex) else highNibble (s.mapByte s.mapIndex)

/-- The payload bytes a dispatch may read, in stream order: `PAY[DP ..]`, no index at or beyond `PAY_LEN` (20_memory.md
R66, R67), and no more than the longest form takes. -/
def payloadWindow (s : State) : List Byte :=
  (List.range (min maxOperands (s.payLen.toNat - s.dp))).map fun k => s.payByte (s.dp + k)

/-- The walker's advance (40_walker_dispatch.md R126) and the normal end of the frame (R127). -/
def walkerAdvance (s : State) : State :=
  if s.blockX + 1 = s.nbx then
    let t := { s with wc := s.wc + 7 * s.w, blockX := 0, blockY := s.blockY + 1 }
    if s.blockY + 1 = s.nby then endNormal t else t
  else { s with blockX := s.blockX + 1 }

/-- What follows a dispatch: "unless the run has ended", the walker advances (40_walker_dispatch.md R126, R128;
60_exceptions.md R261). -/
def afterDispatch : Host.Outcome State Fault Refusal → Host.Outcome State Fault Refusal
  | .next t => .next (if t.flag .busy then walkerAdvance t else t)
  | .fault r => .fault r
  | .refused r => .refused r

/-- The dispatch step of a running decoder (40_walker_dispatch.md R121 to R123): fetch, decode, dispatch, advance. Where the
payload ends before the operands do, the step is the exception (20_memory.md R69, 60_exceptions.md R261). -/
def runBlock (s : State) : Host.Outcome State Fault Refusal :=
  match decode (fetchOpcode s) (payloadWindow s) with
  | .ok (i, _) => afterDispatch (exec i s)
  | .error .payloadTooShort => .next (raisePayloadOverrun (fetchOpcode s) (clearLatches s))

/-- One step of the decoder: a dispatch while `BUSY = 1`; idle, it takes no step and keeps all its state (00_scope.md R12,
60_exceptions.md R278; log entry 11). -/
def decoderTurn (s : State) : Host.Outcome State Fault Refusal :=
  if s.flag .busy then runBlock s else .next s

end Sys2Proof.Machine
end

