-- ==== Sys2Proof/Machine/HostPort.lean ====
section
/-! DEFINITION. The host's side: the register port, `START`, the memory ports and the reset input (10_state.md R21 to R24,
R38 to R40; 40_walker_dispatch.md R120; 20_memory.md R75; 70_reset_and_hazards.md R300 to R305), and the turn that decides
who moves (00_scope.md R10). -/

namespace Sys2Proof.Machine

/-! ### Starting a frame and resetting -/

/-- `sext_32(PAY_REM)` (10_state.md R29). -/
def State.payRemInt (s : State) : Int := s.payRem.toInt

/-- An accepted `START` (40_walker_dispatch.md R120; 10_state.md R39). -/
def acceptStart (s : State) : State :=
  { s with wc := 0, blockX := 0, blockY := 0, dp := 0, dr := s.payRemInt, status := 0 }.setFlag .busy

/-- A refused `START` (40_walker_dispatch.md R120; 60_exceptions.md R263): `STATUS` is `CFG_ERR | FAIL`, nothing else
changes. -/
def refuseStart (s : State) : State :=
  ({ s with status := 0 }.setFlag .cfgErr).setFlag .fail

/-- The write of 1 to `CTRL.START` (40_walker_dispatch.md R120): ignored while busy. -/
def startFrame (s : State) : State :=
  if s.flag .busy then s else if s.legal then acceptStart s else refuseStart s

/-- Hardware reset (70_reset_and_hazards.md R300; 10_state.md R38): every register, latch and `STATUS` 0, whatever was going
on; the memories and the records already emitted stay (log entry 13). -/
def hardReset (s : State) : State :=
  { State.reset with
    cur := s.cur, hist := s.hist, map := s.map, pay := s.pay, diag := s.diag,
    host := s.host, readData := s.readData, powerUp := s.powerUp, draws := s.draws }

/-! ### The register port -/

/-- A host write of `v` to register `n` (10_state.md R21, R23): the configuration registers take their bits while idle and
ignore the write while busy; bit 0 of register 4 is `START`; every other register ignores it. -/
def writeRegister (n : Nat) (v : BitVec 64) (s : State) : State :=
  match n with
  | 0 => if s.flag .busy then s else { s with width := v.setWidth 16 }
  | 1 => if s.flag .busy then s else { s with height := v.setWidth 16 }
  | 2 => if s.flag .busy then s else { s with payLen := v.setWidth 32 }
  | 3 => if s.flag .busy then s else { s with payRem := v.setWidth 32 }
  | 4 => if v.getLsbD 0 then startFrame s else s
  | _ => s

/-- The value of register `n` as the last run left it (10_state.md R21, R40): fields not listed read as 0, `CTRL` reads 0,
a number above 14 reads 0. -/
def registerValue (n : Nat) (s : State) : BitVec 64 :=
  match n with
  | 0 => s.width.setWidth 64
  | 1 => s.height.setWidth 64
  | 2 => s.payLen.setWidth 64
  | 3 => s.payRem.setWidth 64
  | 5 => s.status.setWidth 64
  | 6 => BitVec.ofNat 64 s.wc
  | 7 => (BitVec.ofNat 16 s.blockX).setWidth 64
  | 8 => (BitVec.ofNat 16 s.blockY).setWidth 64
  | 9 => (BitVec.ofNat 32 s.dp).setWidth 64
  | 10 => BitVec.ofInt 64 s.dr
  | 11 => s.faultOp.setWidth 64
  | 12 => (BitVec.ofNat 16 s.faultX).setWidth 64
  | 13 => (BitVec.ofNat 16 s.faultY).setWidth 64
  | 14 => (BitVec.ofNat 32 s.faultDp).setWidth 64
  | _ => 0

/-- The registers whose value a read while busy leaves open: how many bits of register `n` are a draw, and which bits are
fixed (10_state.md R40: `STATUS` reads `BUSY = 1` "with the other bits unspecified", registers 6 to 10 read "an
unspecified value"). -/
def busyOpen (n : Nat) : Option (Nat × BitVec 64) :=
  match n with
  | 5 => some (10, 1)
  | 6 => some (64, 0)
  | 7 => some (16, 0)
  | 8 => some (16, 0)
  | 9 => some (32, 0)
  | 10 => some (64, 0)
  | _ => none

/-- A host read of register `n` (10_state.md R40): the value, or while busy a draw within the register's width, one draw per
read (93_implementation_defined.md U2; log entry 4). No register changes. -/
def readRegister (n : Nat) (s : State) : State :=
  if s.flag .busy then
    match busyOpen n with
    | some (width, fixed) =>
      { s with
        readData := ((Config.busyRead s.draws).setWidth width).setWidth 64 ||| fixed
        draws := s.draws + 1 }
    | none => { s with readData := registerValue n s }
  else { s with readData := registerValue n s }

/-! ### The memory ports -/

/-- A space's memory. -/
def State.memory (s : State) : Space → Memory
  | .cur => s.cur | .hist => s.hist | .map => s.map | .pay => s.pay

/-- The state with a space's memory replaced. -/
def State.setMemory (s : State) (space : Space) (m : Memory) : State :=
  match space with
  | .cur => { s with cur := m }
  | .hist => { s with hist := m }
  | .map => { s with map := m }
  | .pay => { s with pay := m }

/-- A host write of one byte (20_memory.md R75; 70_reset_and_hazards.md R302): only while idle (R305; 93 U3). -/
def hostWriteMem (space : Space) (a : Nat) (v : Byte) (s : State) : Host.Outcome State Fault Refusal :=
  if spaceBound ≤ a then .fault .hostIndexOutOfSpace
  else if s.flag .busy then .refused .hostMemoryWhileBusy
  else .next (s.setMemory space (Memory.write (s.memory space) a v))

/-- A host read of one byte: while busy not of `CUR`, the other spaces at any time (70_reset_and_hazards.md R305, R307). -/
def hostReadMem (space : Space) (a : Nat) (s : State) : Host.Outcome State Fault Refusal :=
  if spaceBound ≤ a then .fault .hostIndexOutOfSpace
  else if s.flag .busy && space == .cur then .refused .hostMemoryWhileBusy
  else .next { s with readData := (Memory.read s.powerUp space (s.memory space) a).setWidth 64 }

/-! ### Whose turn it is -/

/-- One step of the whole machine: the next host turn is made; where it is a `pass`, and where none is left, the decoder
takes a step (00_scope.md R10; log entry 3). -/
def turn (s : State) : Host.Outcome State Fault Refusal :=
  match s.host with
  | [] => decoderTurn s
  | .pass :: rest => decoderTurn { s with host := rest }
  | .writeReg n v :: rest => .next (writeRegister n v { s with host := rest })
  | .readReg n :: rest => .next (readRegister n { s with host := rest })
  | .writeMem space a v :: rest => hostWriteMem space a v { s with host := rest }
  | .readMem space a :: rest => hostReadMem space a { s with host := rest }
  | .reset :: rest => .next (hardReset { s with host := rest })

/-! ### Placing one instruction where the next step fetches it -/

/-- The decoder is running at a block of a legal frame and the longest instruction's operands fit behind `DP`. -/
def State.fetching (s : State) : Bool :=
  s.flag .busy && s.legal && decide (s.blockX < s.nbx) && decide (s.blockY < s.nby)
    && decide (s.dp + maxOperands < 2 ^ 32)

/-- The state brought to the first dispatch of a frame where it is not at a dispatch already: the smallest legal frame
unless the configuration is legal, and an accepted `START` (log entry 3). -/
def makeFetching (s : State) : State :=
  if s.fetching then s
  else if s.legal then acceptStart s
  else acceptStart { s with width := 16, height := 8 }

/-- The payload with `bytes` at the indices from `at` on. -/
def writePayload (m : Memory) (start : Nat) : List Byte → Memory
  | [] => m
  | b :: rest => writePayload (Memory.write m start b) (start + 1) rest

/-- The map byte that holds the nibbles of byte 0 of a table word: bits [3:0] where the fetch looks, bits [7:4] in the other
half. -/
def placedMapByte (s : State) (b : Byte) : Byte :=
  if s.blockX % 2 = 0 then b else packMapByte (highNibble b) (lowNibble b)

/-- One instruction, its bits numbered as spec/opcode_table.json numbers them, placed where the next step of the decoder
fetches: the opcode in the map, the operand bytes at `DP`, `PAY_LEN` no shorter than they need, and no host turn before
it (log entries 3, 10). -/
def placeInstruction (s : State) (nbits w : Nat) : State :=
  let t := makeFetching s
  { t with
    host := []
    map := Memory.write t.map t.mapIndex (placedMapByte t (tableByte nbits w 0))
    pay := writePayload t.pay t.dp (tableOperands nbits w)
    payLen := BitVec.ofNat 32 (max t.payLen.toNat (t.dp + maxOperands)) }

end Sys2Proof.Machine
end

