-- ==== Sys2Proof/Machine/Step.lean ====
section
/-! DEFINITION. One step of the machine. What it does stands in Machine/HostPort.lean and Machine/Sequencer.lean. -/

namespace Sys2Proof.Machine

/-- One step: a host turn, or one dispatch of the decoder (00_scope.md R10; 92_eei_decisions.md D5). -/
def step (s : State) : Host.Outcome State Fault Refusal := turn s

/-- `s` with one instruction placed so that the very next step fetches and runs it (log entry 3). -/
def State.withFetchWord (s : State) (nbits w : Nat) : State := placeInstruction s nbits w

end Sys2Proof.Machine
end

