-- ==== Sys2Proof/Safety.lean ====
section
/-! DEFINITION. The terms the statements are written in: what a dispatch leaves and changes, what it paints or copies, what
the exception does, and the invariants of a run. None of them calls a meaning. -/

namespace Sys2Proof.Machine

/-! ### What no dispatch changes -/

/-- The configuration, the block cursor, the fault record, the memories but `CUR`, and the model's own fields are the same
in `t` as in `s`. -/
def SameOutside (s t : State) : Prop :=
  t.width = s.width ∧ t.height = s.height ∧ t.payLen = s.payLen ∧ t.payRem = s.payRem
    ∧ t.blockX = s.blockX ∧ t.blockY = s.blockY
    ∧ t.faultOp = s.faultOp ∧ t.faultX = s.faultX ∧ t.faultY = s.faultY ∧ t.faultDp = s.faultDp
    ∧ t.hist = s.hist ∧ t.map = s.map ∧ t.pay = s.pay
    ∧ t.host = s.host ∧ t.readData = s.readData ∧ t.powerUp = s.powerUp ∧ t.draws = s.draws

/-! ### The end of a dispatch (60_exceptions.md R267, R268) -/

/-- The records a dispatch appends, in order: `WR_OOB`, `SRC_OOB`, then, where the check is made, `WC_OOB`. -/
def dispatchRecords (op : Nibble) (s t : State) (checksWc : Bool) : List DiagRecord :=
  (if t.wrOob then [⟨.wrOob, op, s.blockX, s.blockY, t.wc⟩] else [])
    ++ (if t.srcOob then [⟨.srcOob, op, s.blockX, s.blockY, t.wc⟩] else [])
    ++ (if checksWc && decide (s.frame ≤ t.wc) then [⟨.wcOob, op, s.blockX, s.blockY, t.wc⟩] else [])

/-- Whether a dispatch that ends in `t` raises a flag. -/
def raisedBy (s t : State) : Flag → Bool
  | .wrOob => t.wrOob
  | .srcOob => t.srcOob
  | .remNeg => decide (t.dr < 0)
  | .wcOob => decide (s.frame ≤ t.wc)
  | _ => false

/-- A completed dispatch of an opcode other than 0x6, all but its pixels: `WC + 8`, `DP + n`, `DR - n`, the sticky flags it
raises beside those already set, its records after those already there, and nothing else. -/
def Advances (op : Nibble) (n : Nat) (s t : State) : Prop :=
  t.wc = s.wc + 8 ∧ t.dp = s.dp + n ∧ t.dr = s.dr - n
    ∧ (∀ f, t.flag f = (s.flag f || raisedBy s t f))
    ∧ t.diag = s.diag ++ dispatchRecords op s t true
    ∧ SameOutside s t

/-! ### Pixels -/

/-- Byte `k` of an operand group; 0 beyond its end, which no statement asks for. -/
def byteAt {n : Nat} (d : Vector Byte n) (k : Nat) : Byte := if h : k < n then d[k] else 0

/-- Every byte of `CUR` outside the in-range part of the block at `WC` reads as before. -/
def KeepsOtherPixels (s t : State) : Prop :=
  ∀ a, (∀ r < 8, ∀ c < 8, s.pixelIndex r c < s.frame → a ≠ s.pixelIndex r c) → t.curByte a = s.curByte a

/-- The whole block is painted: pixel `(r, c)` takes `col r c` where its index is in range, a byte out of range sets
`wr_oob` and is written nowhere, every other byte of `CUR` stays. -/
def Paints (col : Nat → Nat → Byte) (s t : State) : Prop :=
  (∀ r < 8, ∀ c < 8, s.pixelIndex r c < s.frame → t.curByte (s.pixelIndex r c) = col r c)
    ∧ KeepsOtherPixels s t
    ∧ (t.wrOob = true ↔ ∃ r < 8, ∃ c < 8, s.frame ≤ s.pixelIndex r c)
    ∧ t.srcOob = false

/-- The whole block is copied: pixel `(r, c)` takes `val r c` where both its index and the source are in range, and keeps
its byte where the source (`none`) is not; the latches say which of the two happened. -/
def Copies (val : Nat → Nat → Option Byte) (s t : State) : Prop :=
  (∀ r < 8, ∀ c < 8, s.pixelIndex r c < s.frame →
      t.curByte (s.pixelIndex r c) = (val r c).getD (s.curByte (s.pixelIndex r c)))
    ∧ KeepsOtherPixels s t
    ∧ (t.wrOob = true ↔ ∃ r < 8, ∃ c < 8, (val r c).isSome ∧ s.frame ≤ s.pixelIndex r c)
    ∧ (t.srcOob = true ↔ ∃ r < 8, ∃ c < 8, val r c = none)

/-- The source byte of pixel `(r, c)` in `HIST` at displacement `off` (20_memory.md R65). -/
def histSource (s : State) (off : Int) (r c : Nat) : Option Byte :=
  let i := (s.pixelIndex r c : Int) + off
  if 0 ≤ i ∧ i < s.frame then some (s.histByte i.toNat) else none

/-- The index `i` is that of a pixel of the block that comes before `(r, c)` in row-major order, which is pixel
`(k / 8, k % 8)` for some `k < 8r + c`. -/
def isEarlierPixel (s : State) (i : Int) (r c : Nat) : Bool :=
  (List.range (8 * r + c)).any fun k => decide ((s.pixelIndex (k / 8) (k % 8) : Int) = i)

/-- The source byte of pixel `(r, c)` in `CUR` at displacement `off`: where it is a pixel of the same block that comes
earlier in row-major order it is read as this dispatch wrote it, else as it was (42_copy_ops.md R170, R177). -/
def curSource (s t : State) (off : Int) (r c : Nat) : Option Byte :=
  let i := (s.pixelIndex r c : Int) + off
  if 0 ≤ i ∧ i < s.frame then
    some (if isEarlierPixel s i r c then t.curByte i.toNat else s.curByte i.toNat)
  else none

/-! ### The exception (60_exceptions.md R261) -/

/-- `PayloadOverrun` was taken: the fault record, `PAY_OVR`, `FAIL`, `BUSY`; nothing else but the latches, which every
dispatch clears. -/
def TakesPayloadOverrun (op : Nibble) (s t : State) : Prop :=
  t.faultOp = op ∧ t.faultX = s.blockX ∧ t.faultY = s.blockY ∧ t.faultDp = s.dp
    ∧ (∀ f, t.flag f = (f != .busy && (s.flag f || f == .payOvr || f == .fail)))
    ∧ t.wc = s.wc ∧ t.dp = s.dp ∧ t.dr = s.dr ∧ t.blockX = s.blockX ∧ t.blockY = s.blockY
    ∧ t.width = s.width ∧ t.height = s.height ∧ t.payLen = s.payLen ∧ t.payRem = s.payRem
    ∧ t.cur = s.cur ∧ t.hist = s.hist ∧ t.map = s.map ∧ t.pay = s.pay ∧ t.diag = s.diag
    ∧ t.wrOob = false ∧ t.srcOob = false
    ∧ t.host = s.host ∧ t.readData = s.readData ∧ t.powerUp = s.powerUp ∧ t.draws = s.draws

/-- `DP + k <= PAY_LEN`: the next `k` payload bytes may be read (20_memory.md R69). -/
def State.fits (s : State) (k : Nat) : Prop := s.dp + k ≤ s.payLen.toNat

/-- The payload ends before the operands of the opcode do: opcode by opcode as 44_two_colour_ops.md R202, R206,
45_four_colour_ops.md R224, R228, 46_raw_fill_ops.md and 42_copy_ops.md say it, `d k` being the byte at `DP + k`. -/
def OperandsCutOff (s : State) (op : Opcode) : Prop :=
  let d := fun k => (s.payByte (s.dp + k)).toNat
  match op with
  | .cph | .keep | .skip2 => False
  | .cpcf | .cpcb | .cphn | .fill => ¬ s.fits 1
  | .cphw | .dith => ¬ s.fits 2
  | .pat2 => ¬ s.fits 2 ∨ (d 0 ≤ d 1 ∧ ¬ s.fits 10) ∨ (d 1 < d 0 ∧ ¬ s.fits 4)
  | .pat2q => ¬ s.fits 2 ∨ (d 0 ≤ d 1 ∧ ¬ s.fits 16) ∨ (d 1 < d 0 ∧ ¬ s.fits 12)
  | .pat4 => ¬ s.fits 4
      ∨ (d 0 ≤ d 1 ∧ d 2 ≤ d 3 ∧ ¬ s.fits 20) ∨ (d 0 ≤ d 1 ∧ d 3 < d 2 ∧ ¬ s.fits 8)
      ∨ (d 1 < d 0 ∧ ¬ s.fits 12)
  | .pat4q => ¬ s.fits 2 ∨ (d 0 ≤ d 1 ∧ ¬ s.fits 32) ∨ (d 1 < d 0 ∧ ¬ s.fits 24)
  | .raw => ¬ s.fits 64
  | .raw2 => ¬ s.fits 16
  | .raw4 => ¬ s.fits 4

/-! ### The shape of a dispatch -/

/-- The instruction needs `n` operand bytes and answers the exception where they do not fit (60_exceptions.md R261). -/
def OverrunsBelow (i : Instr) (op : Nibble) (n : Nat) : Prop :=
  ∀ s : State, ¬ s.fits n → ∃ t, exec i s = .next t ∧ TakesPayloadOverrun op s t

/-- Where its `n` operand bytes fit, the instruction completes, advances and has the effect `effect`. A legal frame is at
least 16 pixels wide (10_state.md R24); 8 is what keeps the pixels of a block apart. -/
def CompletesWith (i : Instr) (op : Nibble) (n : Nat) (effect : State → State → Prop) : Prop :=
  ∀ s : State, 8 ≤ s.w → s.fits n → ∃ t, exec i s = .next t ∧ Advances op n s t ∧ effect s t

/-- The instruction paints the whole block, pixel `(r, c)` with `col r c`, or overruns the payload. -/
def PaintsBlock (i : Instr) (op : Nibble) (n : Nat) (col : Nat → Nat → Byte) : Prop :=
  CompletesWith i op n (Paints col) ∧ OverrunsBelow i op n

/-- Colour `P0` or `P1` by bit `k` of a pattern byte (41_pattern_unpacker.md R152). -/
def pick2 (p0 p1 pattern : Byte) (k : Nat) : Byte := if pattern.getLsbD k then p1 else p0

/-- The colour among `d[base], ..., d[base + 3]` by the bit pair `[2k+1 : 2k]` of a pattern byte (41_pattern_unpacker.md
R152). -/
def pick4 {n : Nat} (d : Vector Byte n) (base : Nat) (pattern : Byte) (k : Nat) : Byte :=
  byteAt d (base + pattern.toNat / 4 ^ k % 4)

/-! ### Invariants -/

/-- The four memories are in canonical form. -/
def MemoriesCanonical (s : State) : Prop :=
  Memory.wf s.cur = true ∧ Memory.wf s.hist = true ∧ Memory.wf s.map = true ∧ Memory.wf s.pay = true

/-- `STATUS` is one of the words 10_state.md R30 allows: at most one of `BUSY`, `DONE`, `FAIL`; `FAIL` is `CFG_ERR` or
`PAY_OVR`; `EARLY` comes only with `DONE`. -/
def StatusConsistent (s : State) : Prop :=
  (s.flag .done && s.flag .fail) = false
    ∧ (s.flag .busy && (s.flag .done || s.flag .fail)) = false
    ∧ s.flag .fail = (s.flag .cfgErr || s.flag .payOvr)
    ∧ (s.flag .early = true → s.flag .done = true)

/-- Exactly one of `BUSY`, `DONE`, `FAIL` is 1 (10_state.md R30). -/
def OneOfBusyDoneFail (s : State) : Prop :=
  (s.flag .busy).toNat + (s.flag .done).toNat + (s.flag .fail).toNat = 1

/-- The number of dispatches of the run that came before this one: `K = BY*NBX + BX` (10_state.md R27). -/
def State.dispatchNumber (s : State) : Nat := s.blockY * s.nbx + s.blockX

/-- A run in progress is where 10_state.md R22, R24, R26 and R29 say it is. -/
def RunInBounds (s : State) : Prop :=
  s.legal = true ∧ s.blockX < s.nbx ∧ s.blockY < s.nby
    ∧ s.wc ≤ (16 + 7 * s.w) * s.dispatchNumber + 7 * s.w * s.blockY
    ∧ s.dp ≤ s.payLen.toNat
    ∧ s.dr = s.payRem.toInt - s.dp

/-- Every register holds a value of its width with the margins of 10_state.md R22, and `WC` is a multiple of 8 (R34). -/
def RegistersInWidth (s : State) : Prop :=
  s.wc < 2 ^ 46 ∧ s.wc % 8 = 0
    ∧ s.blockX < 2 ^ 16 ∧ s.blockY < 2 ^ 16 ∧ s.dp < 2 ^ 32
    ∧ -(2 ^ 31) - 2 ^ 32 < s.dr ∧ s.dr < 2 ^ 31
    ∧ s.faultX < 2 ^ 16 ∧ s.faultY < 2 ^ 16 ∧ s.faultDp < 2 ^ 32

/-- The invariant of the registers: they hold values of their widths, and a run in progress is in bounds. -/
def RegistersSound (s : State) : Prop :=
  RegistersInWidth s ∧ (s.flag .busy = true → RunInBounds s)

/-- The write cursor is where a run without opcode 0x6 has it: `WC = BY*8*W + BX*8` (10_state.md R34). -/
def OnTheGrid (s : State) : Prop := s.wc = s.blockY * (8 * s.w) + s.blockX * 8

/-- The state with everything blanked that only reports: the diagnostics and the remaining-length counter (sticky bits 6
to 9 of `STATUS`, `DIAG`, the latches, `DR`). -/
def State.blind (s : State) : State :=
  { s with status := s.status &&& 0x03F, diag := [], wrOob := false, srcOob := false, dr := 0 }

end Sys2Proof.Machine
end

