-- ==== Sys2Proof/Certificates/Slice0/Obligations.lean ====
section
/-! DEFINITION. The statements for the provers, in the order of spec/: encoding, operand forms, memory, the 24 instructions,
the walker, the exception, the host's side, and the invariants and headline results. -/

open Sys2Proof Sys2Proof.Machine

/-! ### Encoding -/

/-- Every well-formed instruction, encoded and decoded, is itself, whatever payload follows it (30_encoding.md R90 to
R97). -/
def Obligations.EncodeThenDecodeGivesTheInstruction : Prop :=
  ∀ (i : Instr) (rest : List Byte), i.wellFormed = true →
    decode (encode i).1 ((encode i).2 ++ rest) = .ok (i, rest)

/-- What the decoder accepts is well-formed and encodes to exactly the nibble and the bytes it was read from: no bit is
dropped and no two encodings share an instruction (30_encoding.md R93, R95, R104). -/
def Obligations.DecodeThenEncodeGivesTheBytes : Prop :=
  ∀ (v : Nibble) (p : List Byte) (i : Instr) (rest : List Byte), decode v p = .ok (i, rest) →
    i.wellFormed = true ∧ (encode i).1 = v ∧ (encode i).2 ++ rest = p

/-- Form selection (30_encoding.md R96): the unsigned comparisons of the peeked bytes, and no form where a byte the choice
needs cannot be read.
The tests of 0x8 and 0xA are the spec's own decisions D17 and D18, from general knowledge (log 14). -/
def Obligations.FormSelectionComparesThePeekedBytes : Prop :=
  ∀ p : List Byte,
    let le := fun i j => (p.getD i 0).toNat ≤ (p.getD j 0).toNat
    (2 ≤ p.length → (le 0 1 → formOf .pat2 p = some .pat2Row) ∧ (¬ le 0 1 → formOf .pat2 p = some .pat2Cell))
    ∧ (2 ≤ p.length → le 0 1 → formOf .pat2q p = some .pat2qQuad)
    ∧ (8 ≤ p.length → ¬ le 0 1 →
        (le 6 7 → formOf .pat2q p = some .pat2qLr) ∧ (¬ le 6 7 → formOf .pat2q p = some .pat2qTb))
    ∧ (4 ≤ p.length →
        (le 0 1 → le 2 3 → formOf .pat4 p = some .pat4U1x1) ∧ (le 0 1 → ¬ le 2 3 → formOf .pat4 p = some .pat4U2x2)
        ∧ (¬ le 0 1 → le 2 3 → formOf .pat4 p = some .pat4U2x1)
        ∧ (¬ le 0 1 → ¬ le 2 3 → formOf .pat4 p = some .pat4U1x2))
    ∧ (2 ≤ p.length → le 0 1 → formOf .pat4q p = some .pat4qQuad)
    ∧ (14 ≤ p.length → ¬ le 0 1 →
        (le 12 13 → formOf .pat4q p = some .pat4qLr) ∧ (¬ le 12 13 → formOf .pat4q p = some .pat4qTb))
    ∧ (p.length < 2 → formOf .pat2 p = none ∧ formOf .pat2q p = none ∧ formOf .pat4q p = none)
    ∧ (p.length < 4 → formOf .pat4 p = none)
    ∧ (2 ≤ p.length → p.length < 8 → ¬ le 0 1 → formOf .pat2q p = none)
    ∧ (2 ≤ p.length → p.length < 14 → ¬ le 0 1 → formOf .pat4q p = none)
    ∧ formOf .cph p = some .cph ∧ formOf .keep p = some .keep ∧ formOf .cpcf p = some .cpcf
    ∧ formOf .cpcb p = some .cpcb ∧ formOf .cphn p = some .cphn ∧ formOf .cphw p = some .cphw
    ∧ formOf .skip2 p = some .skip2 ∧ formOf .raw p = some .raw ∧ formOf .raw2 p = some .raw2
    ∧ formOf .raw4 p = some .raw4 ∧ formOf .fill p = some .fill ∧ formOf .dith p = some .dith

/-- The opcode and the payload length of every form (30_encoding.md R97). -/
def Obligations.FormsHaveTheTablesOpcodesAndLengths : Prop :=
  [(Form.cph, 0x0#4, 0), (.keep, 0x1#4, 0), (.cpcf, 0x2#4, 1), (.cpcb, 0x3#4, 1), (.cphn, 0x4#4, 1), (.cphw, 0x5#4, 2),
    (.skip2, 0x6#4, 0), (.pat2Row, 0x7#4, 10), (.pat2Cell, 0x7#4, 4), (.pat2qQuad, 0x8#4, 16), (.pat2qLr, 0x8#4, 12),
    (.pat2qTb, 0x8#4, 12), (.pat4U1x1, 0x9#4, 20), (.pat4U2x2, 0x9#4, 8), (.pat4U2x1, 0x9#4, 12),
    (.pat4U1x2, 0x9#4, 12), (.pat4qQuad, 0xA#4, 32), (.pat4qLr, 0xA#4, 24), (.pat4qTb, 0xA#4, 24), (.raw, 0xB#4, 64),
    (.raw2, 0xC#4, 16), (.raw4, 0xD#4, 4), (.fill, 0xE#4, 1), (.dith, 0xF#4, 2)].Forall
    fun e => e.1.opcode.nibble = e.2.1 ∧ e.1.length = e.2.2

/-- Seven encodings written out from 30_encoding.md R95 decode to the instruction they stand for, and the example map byte of
R91 holds its two opcodes. That 0x5 has `x` first and `y` second is the spec's own decision D15, from general knowledge
(log 14). -/
def Obligations.WrittenOutEncodingsDecode : Prop :=
  decode 0x1 [0x55] = .ok (.keep, [0x55])
    ∧ decode 0x2 [0x0A] = .ok (.cpcf 10, [])
    ∧ decode 0x4 [0x97, 0x01] = .ok (.cphn 7 9, [0x01])
    ∧ decode 0x5 [0xFE, 0x03] = .ok (.cphw 0xFE 0x03, [])
    ∧ decode 0x7 [0x22, 0x11, 0xA5, 0x0F, 0x08] = .ok (.pat2Cell #v[0x22, 0x11, 0xA5, 0x0F], [0x08])
    ∧ decode 0x9 [0x01, 0x02, 0x04, 0x03, 0x1B, 0x1B, 0xE4, 0xE4]
        = .ok (.pat4U2x2 #v[0x01, 0x02, 0x04, 0x03, 0x1B, 0x1B, 0xE4, 0xE4], [])
    ∧ decode 0xF [0x07, 0x09] = .ok (.dith 0x07 0x09, [])
    ∧ lowNibble 0xE1 = 0x1 ∧ highNibble 0xE1 = 0xE

/-! ### Operand forms -/

/-- The far offset code (30_encoding.md R98): both branches, their ranges, and the largest code. -/
def Obligations.FarOffsetFollowsTheFormula : Prop :=
  ∀ b : Byte,
    (b.toNat < 56 → farOffset b = (8 + ((b.toNat % 7 : Nat) : Int), ((b.toNat / 7 : Nat) : Int))
      ∧ 8 ≤ (farOffset b).1 ∧ (farOffset b).1 ≤ 14 ∧ 0 ≤ (farOffset b).2 ∧ (farOffset b).2 ≤ 7)
    ∧ (56 ≤ b.toNat →
      farOffset b = (-14 + (((b.toNat - 56) % 29 : Nat) : Int), 8 + (((b.toNat - 56) / 29 : Nat) : Int))
      ∧ -14 ≤ (farOffset b).1 ∧ (farOffset b).1 ≤ 14 ∧ 8 ≤ (farOffset b).2 ∧ (farOffset b).2 ≤ 14)
    ∧ farOffset b ≠ (14, 14) ∧ (b = 255 → farOffset b = (11, 14))

/-- The near offset (30_encoding.md R99): `x` from bits [3:0] of the byte and `y` from bits [7:4], each minus 8; the wide
offset (R100): a byte in two's complement. The excess of 8 and the two's complement are the spec's own decisions D14 and
D15, from general knowledge (log 14). -/
def Obligations.NearAndWideOffsetsReadTheirFields : Prop :=
  ∀ b : Byte,
    nearOffset (lowNibble b) = ((b.toNat % 16 : Nat) : Int) - 8
    ∧ nearOffset (highNibble b) = ((b.toNat / 16 : Nat) : Int) - 8
    ∧ -8 ≤ nearOffset (lowNibble b) ∧ nearOffset (lowNibble b) ≤ 7
    ∧ -8 ≤ nearOffset (highNibble b) ∧ nearOffset (highNibble b) ≤ 7
    ∧ wideOffset b = (if b.toNat < 128 then (b.toNat : Int) else (b.toNat : Int) - 256)
    ∧ -128 ≤ wideOffset b ∧ wideOffset b ≤ 127

/-- Source and destination of a far copy share no byte unless the frame is 16 pixels wide (42_copy_ops.md R177), in the
positive and in the negated direction. -/
def Obligations.FarCopyBlocksAreDisjointFromWidth32 : Prop :=
  ∀ (b : Byte) (s : State), s.w % 16 = 0 → 32 ≤ s.w →
    ∀ r < 8, ∀ c < 8, ∀ r' < 8, ∀ c' < 8,
      let off := (farOffset b).1 + (farOffset b).2 * (s.w : Int)
      (s.pixelIndex r c : Int) + off ≠ s.pixelIndex r' c' ∧ (s.pixelIndex r c : Int) - off ≠ s.pixelIndex r' c'

/-- A run of units writes exactly the indices of its rectangle, each once (41_pattern_unpacker.md R154, R160). -/
def Obligations.UnitRunWritesItsRectangleOnce : Prop :=
  ∀ (b s w a m uw uh : Nat) (col : BitVec s → Byte) (word : BitVec b), m * uw ≤ w →
    ((runUnits w a m uw uh s col word).map Prod.fst).Nodup
    ∧ ∀ x, x ∈ (runUnits w a m uw uh s col word).map Prod.fst ↔ ∃ i < uh, ∃ j < m * uw, x = a + i * w + j

/-! ### Memory -/

/-- A byte just written reads as written, every other byte reads as before, in every space (20_memory.md R72).
That an index nobody wrote reads as a free value is the model's form of 93_implementation_defined.md U1 (log 1). -/
def Obligations.ReadAfterWriteGivesTheLastValue : Prop :=
  ∀ (p : Nat) (sp : Space) (m : Memory) (a x : Nat) (v : Byte),
    Memory.read p sp (Memory.write m a v) x = if x = a then v else Memory.read p sp m x

/-- `CurWrite` (20_memory.md R64): an index below `FRAME` takes the byte, any other is suppressed and sets `wr_oob`; nothing
else changes. -/
def Obligations.CheckedWriteStoresOrSuppresses : Prop :=
  ∀ (a : Nat) (v : Byte) (s : State),
    (a < s.frame → ∃ m, curWrite a v s = { s with cur := m }
      ∧ ∀ x, (curWrite a v s).curByte x = if x = a then v else s.curByte x)
    ∧ (s.frame ≤ a → curWrite a v s = { s with wrOob := true })

/-- `CurRead` and `HistRead` (20_memory.md R65): a byte for an index in `0..FRAME-1`, none for any other. A copy of one byte
that gets none changes `src_oob` only. -/
def Obligations.CheckedReadsGiveAByteOrNone : Prop :=
  ∀ (s : State) (a : Int),
    (0 ≤ a → a < s.frame → curRead s a = some (s.curByte a.toNat) ∧ histRead s a = some (s.histByte a.toNat))
    ∧ ((a < 0 ∨ (s.frame : Int) ≤ a) → curRead s a = none ∧ histRead s a = none
      ∧ ∀ r c, copyByte curRead (a - s.pixelIndex r c) r c s = { s with srcOob := true }
        ∧ copyByte histRead (a - s.pixelIndex r c) r c s = { s with srcOob := true })

/-! ### The copy opcodes -/

/-- 0x0 `CPH` (42_copy_ops.md R171): the block of `HIST` at the same position; it cannot overrun and never sets `wr_oob`. -/
def Obligations.CphCopiesTheHistoricalBlock : Prop :=
  (∀ rest, decode 0x0 rest = .ok (.cph, rest))
    ∧ ∀ s : State, 8 ≤ s.w → ∃ t, exec .cph s = .next t ∧ Advances 0x0 0 s t ∧ Copies (histSource s 0) s t
      ∧ t.wrOob = false

/-- 0x1 `KEEP` (42_copy_ops.md R172): no pixel change, no latch, no fault; the common advance. -/
def Obligations.KeepOnlyAdvances : Prop :=
  (∀ rest, decode 0x1 rest = .ok (.keep, rest))
    ∧ ∀ s : State, ∃ t, exec .keep s = .next t ∧ Advances 0x1 0 s t ∧ t.cur = s.cur ∧ t.wrOob = false ∧ t.srcOob = false

/-- 0x2 `CPCF` (42_copy_ops.md R173): copy within `CUR` at the far offset, in the access order of R170; `wr_oob` cannot
happen. -/
def Obligations.CpcfCopiesFromTheFarOffset : Prop :=
  ∀ b : Byte, (∀ rest, decode 0x2 (b :: rest) = .ok (.cpcf b, rest))
    ∧ CompletesWith (.cpcf b) 0x2 1 (fun s t =>
        Copies (curSource s t ((farOffset b).1 + (farOffset b).2 * (s.w : Int))) s t ∧ t.wrOob = false)
    ∧ OverrunsBelow (.cpcf b) 0x2 1

/-- 0x3 `CPCB` (42_copy_ops.md R174): the same at the negated offset. -/
def Obligations.CpcbCopiesFromTheNegatedFarOffset : Prop :=
  ∀ b : Byte, (∀ rest, decode 0x3 (b :: rest) = .ok (.cpcb b, rest))
    ∧ CompletesWith (.cpcb b) 0x3 1 (fun s t =>
        Copies (curSource s t (-(farOffset b).1 - (farOffset b).2 * (s.w : Int))) s t)
    ∧ OverrunsBelow (.cpcb b) 0x3 1

/-- 0x4 `CPHN` (42_copy_ops.md R175): copy from `HIST` at the near offset, `x` from the low nibble, `y` from the high.
The excess of 8 is the spec's own decision D14, from general knowledge (log 14). -/
def Obligations.CphnCopiesFromTheNearOffset : Prop :=
  ∀ b : Byte, (∀ rest, decode 0x4 (b :: rest) = .ok (.cphn (lowNibble b) (highNibble b), rest))
    ∧ CompletesWith (.cphn (lowNibble b) (highNibble b)) 0x4 1 (fun s t =>
        Copies (histSource s (((b.toNat % 16 : Nat) : Int) - 8 + (((b.toNat / 16 : Nat) : Int) - 8) * (s.w : Int))) s t)
    ∧ OverrunsBelow (.cphn (lowNibble b) (highNibble b)) 0x4 1

/-- 0x5 `CPHW` (42_copy_ops.md R176): copy from `HIST` at the wide offset, two signed bytes.
The order and the sign are the spec's own decision D15, from general knowledge (log 14). -/
def Obligations.CphwCopiesFromTheWideOffset : Prop :=
  ∀ x y : Byte, (∀ rest, decode 0x5 (x :: y :: rest) = .ok (.cphw x y, rest))
    ∧ CompletesWith (.cphw x y) 0x5 2 (fun s t => Copies (histSource s (x.toInt + y.toInt * (s.w : Int))) s t)
    ∧ OverrunsBelow (.cphw x y) 0x5 2

/-! ### The skip opcode -/

/-- 0x6 `SKIP2` (43_skip_op.md R190): the net effect on `WC` by position, the early end at the last and the second-to-last
block of the frame, and nothing else. -/
def Obligations.Skip2AdvancesTwoBlocksOrEndsTheFrame : Prop :=
  (∀ rest, decode 0x6 rest = .ok (.skip2, rest))
    ∧ ∀ s : State, 2 ≤ s.nbx → s.blockX < s.nbx → s.blockY < s.nby → ∃ t, exec .skip2 s = .next t
      ∧ t.wc = s.wc + (if s.blockX + 3 ≤ s.nbx then 16 else if s.blockX + 2 = s.nbx then 16 + 7 * s.w
          else if s.blockY + 1 = s.nby then 8 + 7 * s.w else 16 + 7 * s.w)
      ∧ t.dp = s.dp ∧ t.dr = s.dr ∧ t.cur = s.cur ∧ t.wrOob = false ∧ t.srcOob = false ∧ SameOutside s t
      ∧ (if s.nbx ≤ s.blockX + 2 ∧ s.blockY + 1 = s.nby then
          (∀ f, t.flag f = (f != .busy && (s.flag f || f == .early || f == .done || (f == .remNeg && decide (t.dr < 0)))))
            ∧ t.diag = s.diag
        else (∀ f, t.flag f = (s.flag f || raisedBy s t f)) ∧ t.diag = s.diag ++ dispatchRecords 0x6 s t true)

/-! ### The two-colour opcodes -/

/-- 0x7 `PAT2.ROW` (44_two_colour_ops.md R200). -/
def Obligations.Pat2RowPaintsOneBitPerPixel : Prop :=
  ∀ d : Vector Byte 10, d[0] ≤ d[1] →
    (∀ rest, decode 0x7 (d.toList ++ rest) = .ok (.pat2Row d, rest))
    ∧ PaintsBlock (.pat2Row d) 0x7 10 fun r c => pick2 d[0] d[1] (byteAt d (2 + r)) c

/-- 0x7 `PAT2.CELL` (44_two_colour_ops.md R201): cell-row `r / 2` is a nibble, the low one of a byte first. -/
def Obligations.Pat2CellPaintsOneBitPerCell : Prop :=
  ∀ d : Vector Byte 4, d[1] < d[0] →
    (∀ rest, decode 0x7 (d.toList ++ rest) = .ok (.pat2Cell d, rest))
    ∧ PaintsBlock (.pat2Cell d) 0x7 4 fun r c => pick2 d[0] d[1] (byteAt d (2 + r / 4)) (4 * (r / 2 % 2) + c / 2)

/-- 0x8 `PAT2Q.QUAD` (44_two_colour_ops.md R203): pixel `(r, c)` lies in quadrant `q = 2*(c/4) + r/4` and uses bit
`4*(r%4) + c%4` of its 16-bit pattern.
The layout is the spec's own decision D17, from general knowledge (log 14). -/
def Obligations.Pat2qQuadPaintsFourQuadrants : Prop :=
  ∀ d : Vector Byte 16, d[0] ≤ d[1] →
    (∀ rest, decode 0x8 (d.toList ++ rest) = .ok (.pat2qQuad d, rest))
    ∧ PaintsBlock (.pat2qQuad d) 0x8 16 fun r c =>
        let q := 2 * (c / 4) + r / 4
        pick2 (byteAt d (4 * q)) (byteAt d (4 * q + 1)) (byteAt d (4 * q + 2 + r % 4 / 2)) (4 * (r % 2) + c % 4)

/-- 0x8 `PAT2Q.LR` (44_two_colour_ops.md R204): four bits per pixel-row of a half, two pixel-rows per byte.
The layout is the spec's own decision D17, from general knowledge (log 14). -/
def Obligations.Pat2qLrPaintsLeftAndRightHalves : Prop :=
  ∀ d : Vector Byte 12, d[1] < d[0] → d[6] ≤ d[7] →
    (∀ rest, decode 0x8 (d.toList ++ rest) = .ok (.pat2qLr d, rest))
    ∧ PaintsBlock (.pat2qLr d) 0x8 12 fun r c =>
        if c < 4 then pick2 d[0] d[1] (byteAt d (2 + r / 2)) (4 * (r % 2) + c)
        else pick2 d[6] d[7] (byteAt d (8 + r / 2)) (4 * (r % 2) + (c - 4))

/-- 0x8 `PAT2Q.TB` (44_two_colour_ops.md R205): one pattern byte per pixel-row, the colours change after four rows.
The layout is the spec's own decision D17, from general knowledge (log 14). -/
def Obligations.Pat2qTbPaintsTopAndBottomHalves : Prop :=
  ∀ d : Vector Byte 12, d[1] < d[0] → d[7] < d[6] →
    (∀ rest, decode 0x8 (d.toList ++ rest) = .ok (.pat2qTb d, rest))
    ∧ PaintsBlock (.pat2qTb d) 0x8 12 fun r c =>
        if r < 4 then pick2 d[0] d[1] (byteAt d (2 + r)) c else pick2 d[6] d[7] (byteAt d (4 + r)) c

/-! ### The four-colour opcodes -/

/-- 0x9 `PAT4.U1x1` (45_four_colour_ops.md R220).
The two-byte rows and the colour a selector picks are the spec's own decision D19, from general knowledge (log 14). -/
def Obligations.Pat4U1x1PaintsTwoBitsPerPixel : Prop :=
  ∀ d : Vector Byte 20, d[0] ≤ d[1] → d[2] ≤ d[3] →
    (∀ rest, decode 0x9 (d.toList ++ rest) = .ok (.pat4U1x1 d, rest))
    ∧ PaintsBlock (.pat4U1x1 d) 0x9 20 fun r c => pick4 d 0 (byteAt d (4 + 2 * r + c / 4)) (c % 4)

/-- 0x9 `PAT4.U2x2` (45_four_colour_ops.md R221). That selector value `v` picks colour `Pv` (41_pattern_unpacker.md R152) is
the spec's own decision D19, from general knowledge (log 14). -/
def Obligations.Pat4U2x2PaintsTwoBitsPerCell : Prop :=
  ∀ d : Vector Byte 8, d[0] ≤ d[1] → d[3] < d[2] →
    (∀ rest, decode 0x9 (d.toList ++ rest) = .ok (.pat4U2x2 d, rest))
    ∧ PaintsBlock (.pat4U2x2 d) 0x9 8 fun r c => pick4 d 0 (byteAt d (4 + r / 2)) (c / 2)

/-- 0x9 `PAT4.U2x1` (45_four_colour_ops.md R222): units two pixels wide and one high.
The orientation and the colour a selector picks are the spec's own decisions D16 and D19, from general knowledge (log 14). -/
def Obligations.Pat4U2x1PaintsWideUnits : Prop :=
  ∀ d : Vector Byte 12, d[1] < d[0] → d[2] ≤ d[3] →
    (∀ rest, decode 0x9 (d.toList ++ rest) = .ok (.pat4U2x1 d, rest))
    ∧ PaintsBlock (.pat4U2x1 d) 0x9 12 fun r c => pick4 d 0 (byteAt d (4 + r)) (c / 2)

/-- 0x9 `PAT4.U1x2` (45_four_colour_ops.md R223): units one pixel wide and two high.
The orientation, the two-byte rows and the colour a selector picks are the spec's own decisions D16 and D19, from general knowledge (log 14). -/
def Obligations.Pat4U1x2PaintsTallUnits : Prop :=
  ∀ d : Vector Byte 12, d[1] < d[0] → d[3] < d[2] →
    (∀ rest, decode 0x9 (d.toList ++ rest) = .ok (.pat4U1x2 d, rest))
    ∧ PaintsBlock (.pat4U1x2 d) 0x9 12 fun r c => pick4 d 0 (byteAt d (4 + 2 * (r / 2) + c / 4)) (c % 4)

/-- 0xA `PAT4Q.QUAD` (45_four_colour_ops.md R225): quadrant `q = 2*(c/4) + r/4`, one pattern byte per quadrant row.
The layout and the colour a selector picks are the spec's own decisions D18 and D19, from general knowledge (log 14). -/
def Obligations.Pat4qQuadPaintsFourQuadrants : Prop :=
  ∀ d : Vector Byte 32, d[0] ≤ d[1] →
    (∀ rest, decode 0xA (d.toList ++ rest) = .ok (.pat4qQuad d, rest))
    ∧ PaintsBlock (.pat4qQuad d) 0xA 32 fun r c =>
        let q := 2 * (c / 4) + r / 4
        pick4 d (8 * q) (byteAt d (8 * q + 4 + r % 4)) (c % 4)

/-- 0xA `PAT4Q.LR` (45_four_colour_ops.md R226): one pattern byte per pixel-row of a half.
The layout and the colour a selector picks are the spec's own decisions D18 and D19, from general knowledge (log 14). -/
def Obligations.Pat4qLrPaintsLeftAndRightHalves : Prop :=
  ∀ d : Vector Byte 24, d[1] < d[0] → d[12] ≤ d[13] →
    (∀ rest, decode 0xA (d.toList ++ rest) = .ok (.pat4qLr d, rest))
    ∧ PaintsBlock (.pat4qLr d) 0xA 24 fun r c =>
        if c < 4 then pick4 d 0 (byteAt d (4 + r)) c else pick4 d 12 (byteAt d (16 + r)) (c - 4)

/-- 0xA `PAT4Q.TB` (45_four_colour_ops.md R227): two pattern bytes per pixel-row, the colours change after four rows.
The layout and the colour a selector picks are the spec's own decisions D18 and D19, from general knowledge (log 14). -/
def Obligations.Pat4qTbPaintsTopAndBottomHalves : Prop :=
  ∀ d : Vector Byte 24, d[1] < d[0] → d[13] < d[12] →
    (∀ rest, decode 0xA (d.toList ++ rest) = .ok (.pat4qTb d, rest))
    ∧ PaintsBlock (.pat4qTb d) 0xA 24 fun r c =>
        if r < 4 then pick4 d 0 (byteAt d (4 + 2 * r + c / 4)) (c % 4)
        else pick4 d 12 (byteAt d (8 + 2 * r + c / 4)) (c % 4)

/-! ### The raw and fill opcodes -/

/-- 0xB `RAW` (46_raw_fill_ops.md R240): 64 literal pixels in row-major order. -/
def Obligations.RawPaintsItsBytesRowMajor : Prop :=
  ∀ d : Vector Byte 64, (∀ rest, decode 0xB (d.toList ++ rest) = .ok (.raw d, rest))
    ∧ PaintsBlock (.raw d) 0xB 64 fun r c => byteAt d (8 * r + c)

/-- 0xC `RAW2` (46_raw_fill_ops.md R241): 16 literal 2x2 cells. -/
def Obligations.Raw2PaintsTwoByTwoCells : Prop :=
  ∀ d : Vector Byte 16, (∀ rest, decode 0xC (d.toList ++ rest) = .ok (.raw2 d, rest))
    ∧ PaintsBlock (.raw2 d) 0xC 16 fun r c => byteAt d (4 * (r / 2) + c / 2)

/-- 0xD `RAW4` (46_raw_fill_ops.md R242): 4 literal quadrants, top-left, top-right, bottom-left, bottom-right. -/
def Obligations.Raw4PaintsFourQuadrants : Prop :=
  ∀ d : Vector Byte 4, (∀ rest, decode 0xD (d.toList ++ rest) = .ok (.raw4 d, rest))
    ∧ PaintsBlock (.raw4 d) 0xD 4 fun r c => byteAt d (2 * (r / 4) + c / 4)

/-- 0xE `FILL` (46_raw_fill_ops.md R243): one colour. -/
def Obligations.FillPaintsOneColour : Prop :=
  ∀ v : Byte, (∀ rest, decode 0xE (v :: rest) = .ok (.fill v, rest))
    ∧ PaintsBlock (.fill v) 0xE 1 fun _ _ => v

/-- 0xF `DITH` (46_raw_fill_ops.md R244): a checkerboard. -/
def Obligations.DithPaintsACheckerboard : Prop :=
  ∀ c0 c1 : Byte, (∀ rest, decode 0xF (c0 :: c1 :: rest) = .ok (.dith c0 c1, rest))
    ∧ PaintsBlock (.dith c0 c1) 0xF 2 fun r c => if (r + c) % 2 = 0 then c0 else c1

/-! ### The walker and the exception -/

/-- A step runs the decoded instruction (40_walker_dispatch.md R121 to R123): in a running decoder whose turn it is, where
the nibble of block `(BY, BX)` and the payload at `DP` decode to `i`, the step is `exec i` followed, if the run has not
ended, by the walker's advance. That a `pass` turn or an empty list gives the decoder its turn is the model's (log 3). -/
def Obligations.StepRunsTheDecodedInstruction : Prop :=
  ∀ (s : State) (turns : List HostTurn) (i : Instr) (rest : List Byte),
    (s.host = [] ∧ turns = [] ∨ s.host = .pass :: turns) → s.flag .busy = true →
    decode (fetchOpcode s) (payloadWindow s) = .ok (i, rest) →
    ∃ t, exec i { s with host := turns } = .next t
      ∧ step s = .next (if t.flag .busy then walkerAdvance t else t)

/-- The opcode and the operand bytes a dispatch is decoded from (40_walker_dispatch.md R122; 30_encoding.md R91, R92;
20_memory.md R66, R67): the nibble of the map byte by the parity of `BX`, and the payload bytes from `DP` on, none at or
beyond `PAY_LEN`. -/
def Obligations.FetchReadsTheMapAndThePayload : Prop :=
  ∀ s : State,
    (s.blockX % 2 = 0 → fetchOpcode s = lowNibble (s.mapByte (s.blockY * (s.w / 16) + s.blockX / 2)))
    ∧ (s.blockX % 2 = 1 → fetchOpcode s = highNibble (s.mapByte (s.blockY * (s.w / 16) + s.blockX / 2)))
    ∧ (payloadWindow s).length = min 64 (s.payLen.toNat - s.dp)
    ∧ ∀ k, s.dp + k < s.payLen.toNat → k < 64 → (payloadWindow s)[k]? = some (s.payByte (s.dp + k))

/-- The walker's advance and the normal end (40_walker_dispatch.md R126, R127): by the place of the block in its row and in
the frame. -/
def Obligations.WalkerMovesToTheNextBlock : Prop :=
  ∀ s : State,
    (s.blockX + 1 ≠ s.nbx → walkerAdvance s = { s with blockX := s.blockX + 1 })
    ∧ (s.blockX + 1 = s.nbx → s.blockY + 1 ≠ s.nby →
        walkerAdvance s = { s with wc := s.wc + 7 * s.w, blockX := 0, blockY := s.blockY + 1 })
    ∧ (s.blockX + 1 = s.nbx → s.blockY + 1 = s.nby → ∃ st,
        walkerAdvance s = { s with wc := s.wc + 7 * s.w, blockX := 0, blockY := s.blockY + 1, status := st }
        ∧ ∀ f : Flag, st.getLsbD f.bit = (f != .busy && (s.flag f || f == .done)))

/-- A running decoder takes `PayloadOverrun` exactly when the payload ends before the operands of the fetched opcode do
(20_memory.md R69; 44 R202, R206; 45 R224, R228; 60_exceptions.md R261), and the exception is precise. -/
def Obligations.OverrunIsTakenExactlyWhenOperandsAreCutOff : Prop :=
  ∀ s : State, s.host = [] → s.flag .busy = true → ∃ t, step s = .next t
    ∧ (OperandsCutOff s (Opcode.ofNibble (fetchOpcode s)) → TakesPayloadOverrun (fetchOpcode s) s t)
    ∧ (¬ OperandsCutOff s (Opcode.ofNibble (fetchOpcode s)) → t.flag .payOvr = s.flag .payOvr ∧ s.wc < t.wc)

/-! ### The host's side -/

/-- `START` (40_walker_dispatch.md R120, 60_exceptions.md R263, 10_state.md R39): ignored while busy or with a 0; accepted
where the configuration is legal, else refused.
That the write is a turn in `host` is the model's (log 3). -/
def Obligations.StartIsAcceptedRefusedOrIgnored : Prop :=
  ∀ (s : State) (v : BitVec 64) (turns : List HostTurn), s.host = .writeReg 4 v :: turns →
    (v.getLsbD 0 = false ∨ s.flag .busy = true → step s = .next { s with host := turns })
    ∧ (v.getLsbD 0 = true → s.flag .busy = false →
        ((s.w ≠ 0 ∧ s.w % 16 = 0 ∧ s.h ≠ 0 ∧ s.h % 8 = 0) → step s = .next { s with
          host := turns, status := 0x001, wc := 0, blockX := 0, blockY := 0, dp := 0, dr := s.payRem.toInt })
        ∧ (¬ (s.w ≠ 0 ∧ s.w % 16 = 0 ∧ s.h ≠ 0 ∧ s.h % 8 = 0) →
          step s = .next { s with host := turns, status := 0x014 }))

/-- Configuration writes (10_state.md R23): they store the register's bits while idle and are ignored while busy;
registers 5
and up ignore every write (R21).
That the write is a turn in `host` is the model's (log 3). -/
def Obligations.ConfigurationWritesTakeEffectWhileIdle : Prop :=
  ∀ (s : State) (n : Nat) (v : BitVec 64) (turns : List HostTurn), s.host = .writeReg n v :: turns →
    (n ≠ 4 → s.flag .busy = true → step s = .next { s with host := turns })
    ∧ (5 ≤ n → step s = .next { s with host := turns })
    ∧ (s.flag .busy = false →
        (n = 0 → step s = .next { s with host := turns, width := v.setWidth 16 })
        ∧ (n = 1 → step s = .next { s with host := turns, height := v.setWidth 16 })
        ∧ (n = 2 → step s = .next { s with host := turns, payLen := v.setWidth 32 })
        ∧ (n = 3 → step s = .next { s with host := turns, payRem := v.setWidth 32 }))

/-- Register reads while idle (10_state.md R21, R40): the value of every register, 0 for `CTRL` and above 14; no other
effect.
That the value appears in `readData` is the model's (log 8). -/
def Obligations.RegisterReadsGiveTheValuesWhileIdle : Prop :=
  ∀ (s : State) (n : Nat) (turns : List HostTurn), s.host = .readReg n :: turns → s.flag .busy = false →
    ∃ v : BitVec 64, step s = .next { s with host := turns, readData := v }
      ∧ (n = 0 → v.toNat = s.width.toNat) ∧ (n = 1 → v.toNat = s.height.toNat)
      ∧ (n = 2 → v.toNat = s.payLen.toNat) ∧ (n = 3 → v.toNat = s.payRem.toNat)
      ∧ (n = 4 → v = 0) ∧ (n = 5 → v.toNat = s.status.toNat)
      ∧ (n = 6 → s.wc < 2 ^ 64 → v.toNat = s.wc)
      ∧ (n = 7 → s.blockX < 2 ^ 16 → v.toNat = s.blockX) ∧ (n = 8 → s.blockY < 2 ^ 16 → v.toNat = s.blockY)
      ∧ (n = 9 → s.dp < 2 ^ 32 → v.toNat = s.dp)
      ∧ (n = 10 → -2 ^ 63 ≤ s.dr → s.dr < 2 ^ 63 → v.toInt = s.dr)
      ∧ (n = 11 → v.toNat = s.faultOp.toNat)
      ∧ (n = 12 → s.faultX < 2 ^ 16 → v.toNat = s.faultX) ∧ (n = 13 → s.faultY < 2 ^ 16 → v.toNat = s.faultY)
      ∧ (n = 14 → s.faultDp < 2 ^ 32 → v.toNat = s.faultDp)
      ∧ (15 ≤ n → v = 0)

/-- Register reads while busy (10_state.md R40): `STATUS` reads `BUSY = 1`, and what is open stays within the register's
width; no register changes. The draw counter and `readData` are the model's (logs 4, 8). -/
def Obligations.BusyReadsOfStatusShowBusy : Prop :=
  ∀ (s : State) (n : Nat) (turns : List HostTurn), s.host = .readReg n :: turns → s.flag .busy = true →
    ∃ (v : BitVec 64) (k : Nat), step s = .next { s with host := turns, readData := v, draws := k }
      ∧ (n = 5 → v.getLsbD 0 = true ∧ v.toNat < 2 ^ 10)
      ∧ (n = 7 ∨ n = 8 → v.toNat < 2 ^ 16) ∧ (n = 9 → v.toNat < 2 ^ 32)
      ∧ (5 ≤ n → n ≤ 10 → k = s.draws + 1) ∧ (n < 5 ∨ 11 ≤ n → k = s.draws)
      ∧ (n = 0 → v.toNat = s.width.toNat) ∧ (n = 11 → v.toNat = s.faultOp.toNat)

/-- Host accesses to a memory (20_memory.md R75, 70_reset_and_hazards.md R305): a write while idle stores the byte, a read
gives it; while busy `HIST`, `MAP` and `PAY` may still be read. The refusal while busy and the fault at an index no space
has are the model's (logs 6, 7). -/
def Obligations.HostMemoryAccessesGoThroughWhileIdle : Prop :=
  (∀ (s : State) (sp : Space) (a : Nat) (v : Byte) (turns : List HostTurn), s.host = .writeMem sp a v :: turns →
    (2 ^ 32 ≤ a → step s = .fault .hostIndexOutOfSpace)
    ∧ (a < 2 ^ 32 → s.flag .busy = true → step s = .refused .hostMemoryWhileBusy)
    ∧ (a < 2 ^ 32 → s.flag .busy = false → ∃ m,
        step s = .next ({ s with host := turns }.setMemory sp m)
        ∧ ∀ x, Memory.read s.powerUp sp m x = if x = a then v else Memory.read s.powerUp sp (s.memory sp) x))
  ∧ (∀ (s : State) (sp : Space) (a : Nat) (turns : List HostTurn), s.host = .readMem sp a :: turns →
    (2 ^ 32 ≤ a → step s = .fault .hostIndexOutOfSpace)
    ∧ (a < 2 ^ 32 → s.flag .busy = true → sp = .cur → step s = .refused .hostMemoryWhileBusy)
    ∧ (a < 2 ^ 32 → (s.flag .busy = false ∨ sp ≠ .cur) → ∃ v : BitVec 64,
        step s = .next { s with host := turns, readData := v }
        ∧ v.toNat = (Memory.read s.powerUp sp (s.memory sp) a).toNat))

/-- Hardware reset at any time (70_reset_and_hazards.md R300, 10_state.md R38): every register and latch 0, the memories and
the records already emitted as they were.
That the reset is a turn in `host`, and what becomes of the model's own fields, is the model's (logs 3, 8, 13). -/
def Obligations.HardwareResetClearsTheRegisters : Prop :=
  ∀ (s : State) (turns : List HostTurn), s.host = .reset :: turns → ∃ t, step s = .next t
    ∧ t.width = 0 ∧ t.height = 0 ∧ t.payLen = 0 ∧ t.payRem = 0
    ∧ t.wc = 0 ∧ t.blockX = 0 ∧ t.blockY = 0 ∧ t.dp = 0 ∧ t.dr = 0 ∧ t.status = 0
    ∧ t.faultOp = 0 ∧ t.faultX = 0 ∧ t.faultY = 0 ∧ t.faultDp = 0 ∧ t.wrOob = false ∧ t.srcOob = false ∧ t.irq = false
    ∧ t.cur = s.cur ∧ t.hist = s.hist ∧ t.map = s.map ∧ t.pay = s.pay ∧ t.diag = s.diag
    ∧ t.host = turns ∧ t.readData = s.readData ∧ t.powerUp = s.powerUp ∧ t.draws = s.draws

/-- The state after reset (10_state.md R38): every register, latch and `irq` 0, no record emitted. That nobody has written
the memories is the model's (log 1). -/
def Obligations.ResetStateHasTheResetValues : Prop :=
  let s := State.reset
  s.width = 0 ∧ s.height = 0 ∧ s.payLen = 0 ∧ s.payRem = 0 ∧ s.wc = 0 ∧ s.blockX = 0 ∧ s.blockY = 0 ∧ s.dp = 0
    ∧ s.dr = 0 ∧ s.status = 0 ∧ s.faultOp = 0 ∧ s.faultX = 0 ∧ s.faultY = 0 ∧ s.faultDp = 0
    ∧ s.wrOob = false ∧ s.srcOob = false ∧ s.irq = false ∧ s.diag = []

/-- The completion line is `DONE or FAIL` and a function of `STATUS` alone (10_state.md R37). -/
def Obligations.IrqIsDoneOrFail : Prop :=
  ∀ s s' : State, s.irq = (s.status.getLsbD 1 || s.status.getLsbD 2) ∧ (s.status = s'.status → s.irq = s'.irq)

/-- An idle decoder takes no step and keeps all its state (00_scope.md R12, 60_exceptions.md R278). That the machine's
step is
then the state itself is the model's (log 11). -/
def Obligations.IdleDecoderKeepsItsState : Prop :=
  ∀ s : State, s.host = [] → s.flag .busy = false → step s = .next s

/-! ### Invariants of every step -/

/-- The memories stay in canonical form.
The form is the model's (log 1). -/
def Obligations.EveryStepKeepsTheMemoriesCanonical : Prop :=
  ∀ s t : State, MemoriesCanonical s → step s = .next t → MemoriesCanonical t

/-- No register ever leaves its width, and a run in progress stays in bounds (10_state.md R22, R26, R29, R34). -/
def Obligations.EveryStepKeepsTheRegistersInTheirWidths : Prop :=
  ∀ s t : State, RegistersSound s → step s = .next t → RegistersSound t

/-- `STATUS` stays one of the words 10_state.md R30 allows. -/
def Obligations.EveryStepKeepsStatusConsistent : Prop :=
  ∀ s t : State, StatusConsistent s → step s = .next t → StatusConsistent t

/-- From the first `START` on exactly one of `BUSY`, `DONE`, `FAIL` is 1, until a reset (10_state.md R30). That `START` is a
turn in `host` is the model's (log 3). -/
def Obligations.OnceStartedExactlyOneOfBusyDoneFail : Prop :=
  ∀ s t : State, StatusConsistent s → step s = .next t → (∀ turns, s.host ≠ .reset :: turns) →
    ((∃ v turns, s.host = .writeReg 4 v :: turns ∧ v.getLsbD 0 = true) ∨ OneOfBusyDoneFail s) → OneOfBusyDoneFail t

/-- What `STATUS` says of a run stays said: every flag but `BUSY`, once set, stays set in every step but a `START` taken
while idle and a reset (10_state.md R30). That these are turns in `host` is the model's (log 3). -/
def Obligations.FlagsStaySetUntilStartOrReset : Prop :=
  ∀ (s t : State) (f : Flag), step s = .next t → (∀ turns, s.host ≠ .reset :: turns) →
    (∀ v turns, s.host = .writeReg 4 v :: turns → v.getLsbD 0 = false ∨ s.flag .busy = true) →
    f ≠ .busy → s.flag f = true → t.flag f = true

/-- The fault record changes in no step but a reset and the exception, `START` included, and the exception writes the
dispatch it stopped (10_state.md R31; 70_reset_and_hazards.md R315).
That a reset is a turn in `host` is the model's (log 3). -/
def Obligations.FaultRecordChangesOnlyOnOverrun : Prop :=
  ∀ s t : State, step s = .next t → (∀ turns, s.host ≠ .reset :: turns) →
    (t.faultOp = s.faultOp ∧ t.faultX = s.faultX ∧ t.faultY = s.faultY ∧ t.faultDp = s.faultDp)
    ∨ (s.flag .busy = true ∧ t.flag .payOvr = true ∧ t.flag .fail = true ∧ t.flag .busy = false
      ∧ t.faultOp = fetchOpcode s ∧ t.faultX = s.blockX ∧ t.faultY = s.blockY ∧ t.faultDp = s.dp)

/-- The three invariants hold at reset. -/
def Obligations.ResetSatisfiesTheInvariants : Prop :=
  MemoriesCanonical State.reset ∧ RegistersSound State.reset ∧ StatusConsistent State.reset

/-! ### The whole machine -/

/-- What the decoder can touch (20_memory.md R64, 00_scope.md R11, 30_encoding.md R102): it always takes its step; the
configuration, `HIST`, `MAP`, `PAY` and the model's own fields stay, only in-range bytes of the block at `WC` can change in
`CUR`, records are only appended. -/
def Obligations.DecoderStepTouchesOnlyItsOwnState : Prop :=
  ∀ s : State, s.host = [] → ∃ t, step s = .next t
    ∧ t.width = s.width ∧ t.height = s.height ∧ t.payLen = s.payLen ∧ t.payRem = s.payRem
    ∧ t.hist = s.hist ∧ t.map = s.map ∧ t.pay = s.pay
    ∧ t.host = s.host ∧ t.readData = s.readData ∧ t.powerUp = s.powerUp ∧ t.draws = s.draws
    ∧ KeepsOtherPixels s t
    ∧ ∃ records, t.diag = s.diag ++ records ∧ records.length ≤ 3

/-- Every frame an accepted `START` begins is over after at most `NBX*NBY` dispatches, in exactly one of the three ways of
00_scope.md R12: `DONE`, `DONE` with `EARLY`, or `FAIL` with `PAY_OVR`. That `START` is a turn in `host` is the model's
(log 3), and so is the count of steps where a run ends sooner: the steps left over are idle steps, each the same state again
(log 11). -/
def Obligations.EveryStartedFrameEnds : Prop :=
  ∀ (s : State) (v : BitVec 64), s.host = [.writeReg 4 v] → v.getLsbD 0 = true → s.flag .busy = false →
    s.legal = true → ∃ t, Host.Core.run Sys2Proof.core (1 + s.nbx * s.nby) s = .next t
      ∧ t.flag .busy = false ∧ t.flag .cfgErr = false
      ∧ ((t.flag .done = true ∧ t.flag .fail = false ∧ t.flag .payOvr = false)
        ∨ (t.flag .fail = true ∧ t.flag .payOvr = true ∧ t.flag .done = false ∧ t.flag .early = false))

/-- On the grid, a dispatch of any opcode but 0x6 stays on the grid, raises neither `WR_OOB` nor `WC_OOB`, and ends the
frame
only by the exception or with `WC = FRAME` (10_state.md R34, 40_walker_dispatch.md R127, 60_exceptions.md R268). -/
def Obligations.CleanRunStaysOnTheGrid : Prop :=
  ∀ s : State, s.host = [] → s.flag .busy = true → RunInBounds s → OnTheGrid s → fetchOpcode s ≠ 0x6 →
    ∃ t, step s = .next t
      ∧ (t.flag .busy = true → OnTheGrid t)
      ∧ (t.flag .busy = false → TakesPayloadOverrun (fetchOpcode s) s t
          ∨ (t.wc = s.frame ∧ t.blockX = 0 ∧ t.blockY = s.nby))
      ∧ t.flag .wrOob = s.flag .wrOob ∧ t.flag .wcOob = s.flag .wcOob

/-- Diagnostics and the remaining-length counter do not steer (40_walker_dispatch.md R129, 10_state.md R29): two machines
that
differ only in them make steps that differ only in them. -/
def Obligations.DiagnosticsDoNotSteer : Prop :=
  ∀ s s' : State, s.host = [] → s.blind = s'.blind →
    ∃ t t', step s = .next t ∧ step s' = .next t' ∧ t.blind = t'.blind
end

