-- ==== Sys2Proof/Laws/Decode.lean ====
section
/-! SUPPORT. The small lemmas of decoding: taking bytes off the payload, opcodes and nibbles, reading two selectors. -/

namespace Sys2Proof

/-- The bytes of a group, followed by anything, are taken off whole. -/
theorem takeBytes_append {n : Nat} (d : Vector Byte n) (rest : List Byte) :
    takeBytes n (d.toList ++ rest) = some (d, rest) := by
  have h : n ≤ (d.toList ++ rest).length := by simp
  unfold takeBytes
  rw [dif_pos h]
  simp only [Option.some.injEq, Prod.mk.injEq]
  constructor
  · apply Vector.toList_inj.mp
    show (((d.toList ++ rest).take n).toArray).toList = d.toList
    simp
  · simp

/-- What was taken off, put back, is the payload. -/
theorem takeBytes_eq_some {n : Nat} {p : List Byte} {d : Vector Byte n} {rest : List Byte}
    (h : takeBytes n p = some (d, rest)) : p = d.toList ++ rest := by
  unfold takeBytes at h
  split at h
  · simp only [Option.some.injEq, Prod.mk.injEq] at h
    obtain ⟨rfl, rfl⟩ := h
    exact (List.take_append_drop n p).symm
  · exact absurd h (by simp)

/-- Bytes can be taken off exactly when there are enough of them. -/
theorem takeBytes_isSome (n : Nat) (p : List Byte) : (takeBytes n p).isSome = decide (n ≤ p.length) := by
  unfold takeBytes
  split <;> simp_all

theorem Opcode.ofNibble_nibble (op : Opcode) : Opcode.ofNibble op.nibble = op := by
  cases op <;> rfl

theorem Opcode.nibble_ofNibble (v : Nibble) : (Opcode.ofNibble v).nibble = v := by
  revert v; decide

/-- Two bytes that can be read are compared unsigned. -/
theorem byteLe_of_getElem {p : List Byte} {i j : Nat} {a b : Byte} (hi : p[i]? = some a) (hj : p[j]? = some b) :
    byteLe p i j = some (decide (a ≤ b)) := by
  simp [byteLe, hi, hj]

/-- A byte of a group stands at its place in the payload. -/
theorem getElem?_operands {n k : Nat} (d : Vector Byte n) (rest : List Byte) (h : k < n) :
    (d.toList ++ rest)[k]? = some d[k] := by
  rw [List.getElem?_append_left (by simpa using h)]
  simp [h]

/-- The two nibbles of a byte make the byte. -/
theorem highNibble_append_lowNibble (b : Byte) : highNibble b ++ lowNibble b = b := by
  revert b; decide

@[simp] theorem lowNibble_append (x y : Nibble) : lowNibble (y ++ x) = x := by
  revert x y; decide

@[simp] theorem highNibble_append (x y : Nibble) : highNibble (y ++ x) = y := by
  revert x y; decide

end Sys2Proof
end

