-- ==== Sys2Proof/Laws/State.lean ====
section
/-! SUPPORT. The small lemmas of the state updates: one per update and field, each true by rfl, so that no later proof
unfolds an update. -/

namespace Sys2Proof.Machine

/-! ### `State.setFlag` -/

@[simp] theorem State.setFlag_width (s : State) (f : Flag) : (s.setFlag f).width = s.width := rfl
@[simp] theorem State.setFlag_height (s : State) (f : Flag) : (s.setFlag f).height = s.height := rfl
@[simp] theorem State.setFlag_payLen (s : State) (f : Flag) : (s.setFlag f).payLen = s.payLen := rfl
@[simp] theorem State.setFlag_payRem (s : State) (f : Flag) : (s.setFlag f).payRem = s.payRem := rfl
@[simp] theorem State.setFlag_wc (s : State) (f : Flag) : (s.setFlag f).wc = s.wc := rfl
@[simp] theorem State.setFlag_blockX (s : State) (f : Flag) : (s.setFlag f).blockX = s.blockX := rfl
@[simp] theorem State.setFlag_blockY (s : State) (f : Flag) : (s.setFlag f).blockY = s.blockY := rfl
@[simp] theorem State.setFlag_dp (s : State) (f : Flag) : (s.setFlag f).dp = s.dp := rfl
@[simp] theorem State.setFlag_dr (s : State) (f : Flag) : (s.setFlag f).dr = s.dr := rfl
@[simp] theorem State.setFlag_status (s : State) (f : Flag) : (s.setFlag f).status = s.status ||| BitVec.twoPow 10 f.bit := rfl
@[simp] theorem State.setFlag_faultOp (s : State) (f : Flag) : (s.setFlag f).faultOp = s.faultOp := rfl
@[simp] theorem State.setFlag_faultX (s : State) (f : Flag) : (s.setFlag f).faultX = s.faultX := rfl
@[simp] theorem State.setFlag_faultY (s : State) (f : Flag) : (s.setFlag f).faultY = s.faultY := rfl
@[simp] theorem State.setFlag_faultDp (s : State) (f : Flag) : (s.setFlag f).faultDp = s.faultDp := rfl
@[simp] theorem State.setFlag_wrOob (s : State) (f : Flag) : (s.setFlag f).wrOob = s.wrOob := rfl
@[simp] theorem State.setFlag_srcOob (s : State) (f : Flag) : (s.setFlag f).srcOob = s.srcOob := rfl
@[simp] theorem State.setFlag_cur (s : State) (f : Flag) : (s.setFlag f).cur = s.cur := rfl
@[simp] theorem State.setFlag_hist (s : State) (f : Flag) : (s.setFlag f).hist = s.hist := rfl
@[simp] theorem State.setFlag_map (s : State) (f : Flag) : (s.setFlag f).map = s.map := rfl
@[simp] theorem State.setFlag_pay (s : State) (f : Flag) : (s.setFlag f).pay = s.pay := rfl
@[simp] theorem State.setFlag_diag (s : State) (f : Flag) : (s.setFlag f).diag = s.diag := rfl
@[simp] theorem State.setFlag_host (s : State) (f : Flag) : (s.setFlag f).host = s.host := rfl
@[simp] theorem State.setFlag_readData (s : State) (f : Flag) : (s.setFlag f).readData = s.readData := rfl
@[simp] theorem State.setFlag_powerUp (s : State) (f : Flag) : (s.setFlag f).powerUp = s.powerUp := rfl
@[simp] theorem State.setFlag_draws (s : State) (f : Flag) : (s.setFlag f).draws = s.draws := rfl
@[simp] theorem State.setFlag_w (s : State) (f : Flag) : (s.setFlag f).w = s.w := rfl
@[simp] theorem State.setFlag_h (s : State) (f : Flag) : (s.setFlag f).h = s.h := rfl
@[simp] theorem State.setFlag_nbx (s : State) (f : Flag) : (s.setFlag f).nbx = s.nbx := rfl
@[simp] theorem State.setFlag_nby (s : State) (f : Flag) : (s.setFlag f).nby = s.nby := rfl
@[simp] theorem State.setFlag_frame (s : State) (f : Flag) : (s.setFlag f).frame = s.frame := rfl
@[simp] theorem State.setFlag_legal (s : State) (f : Flag) : (s.setFlag f).legal = s.legal := rfl

/-! ### `State.clearFlag` -/

@[simp] theorem State.clearFlag_width (s : State) (f : Flag) : (s.clearFlag f).width = s.width := rfl
@[simp] theorem State.clearFlag_height (s : State) (f : Flag) : (s.clearFlag f).height = s.height := rfl
@[simp] theorem State.clearFlag_payLen (s : State) (f : Flag) : (s.clearFlag f).payLen = s.payLen := rfl
@[simp] theorem State.clearFlag_payRem (s : State) (f : Flag) : (s.clearFlag f).payRem = s.payRem := rfl
@[simp] theorem State.clearFlag_wc (s : State) (f : Flag) : (s.clearFlag f).wc = s.wc := rfl
@[simp] theorem State.clearFlag_blockX (s : State) (f : Flag) : (s.clearFlag f).blockX = s.blockX := rfl
@[simp] theorem State.clearFlag_blockY (s : State) (f : Flag) : (s.clearFlag f).blockY = s.blockY := rfl
@[simp] theorem State.clearFlag_dp (s : State) (f : Flag) : (s.clearFlag f).dp = s.dp := rfl
@[simp] theorem State.clearFlag_dr (s : State) (f : Flag) : (s.clearFlag f).dr = s.dr := rfl
@[simp] theorem State.clearFlag_status (s : State) (f : Flag) : (s.clearFlag f).status = s.status &&& ~~~ BitVec.twoPow 10 f.bit := rfl
@[simp] theorem State.clearFlag_faultOp (s : State) (f : Flag) : (s.clearFlag f).faultOp = s.faultOp := rfl
@[simp] theorem State.clearFlag_faultX (s : State) (f : Flag) : (s.clearFlag f).faultX = s.faultX := rfl
@[simp] theorem State.clearFlag_faultY (s : State) (f : Flag) : (s.clearFlag f).faultY = s.faultY := rfl
@[simp] theorem State.clearFlag_faultDp (s : State) (f : Flag) : (s.clearFlag f).faultDp = s.faultDp := rfl
@[simp] theorem State.clearFlag_wrOob (s : State) (f : Flag) : (s.clearFlag f).wrOob = s.wrOob := rfl
@[simp] theorem State.clearFlag_srcOob (s : State) (f : Flag) : (s.clearFlag f).srcOob = s.srcOob := rfl
@[simp] theorem State.clearFlag_cur (s : State) (f : Flag) : (s.clearFlag f).cur = s.cur := rfl
@[simp] theorem State.clearFlag_hist (s : State) (f : Flag) : (s.clearFlag f).hist = s.hist := rfl
@[simp] theorem State.clearFlag_map (s : State) (f : Flag) : (s.clearFlag f).map = s.map := rfl
@[simp] theorem State.clearFlag_pay (s : State) (f : Flag) : (s.clearFlag f).pay = s.pay := rfl
@[simp] theorem State.clearFlag_diag (s : State) (f : Flag) : (s.clearFlag f).diag = s.diag := rfl
@[simp] theorem State.clearFlag_host (s : State) (f : Flag) : (s.clearFlag f).host = s.host := rfl
@[simp] theorem State.clearFlag_readData (s : State) (f : Flag) : (s.clearFlag f).readData = s.readData := rfl
@[simp] theorem State.clearFlag_powerUp (s : State) (f : Flag) : (s.clearFlag f).powerUp = s.powerUp := rfl
@[simp] theorem State.clearFlag_draws (s : State) (f : Flag) : (s.clearFlag f).draws = s.draws := rfl
@[simp] theorem State.clearFlag_w (s : State) (f : Flag) : (s.clearFlag f).w = s.w := rfl
@[simp] theorem State.clearFlag_h (s : State) (f : Flag) : (s.clearFlag f).h = s.h := rfl
@[simp] theorem State.clearFlag_nbx (s : State) (f : Flag) : (s.clearFlag f).nbx = s.nbx := rfl
@[simp] theorem State.clearFlag_nby (s : State) (f : Flag) : (s.clearFlag f).nby = s.nby := rfl
@[simp] theorem State.clearFlag_frame (s : State) (f : Flag) : (s.clearFlag f).frame = s.frame := rfl
@[simp] theorem State.clearFlag_legal (s : State) (f : Flag) : (s.clearFlag f).legal = s.legal := rfl

/-! ### `State.emit` -/

@[simp] theorem State.emit_width (s : State) (k : DiagKind) (op : Nibble) : (s.emit k op).width = s.width := rfl
@[simp] theorem State.emit_height (s : State) (k : DiagKind) (op : Nibble) : (s.emit k op).height = s.height := rfl
@[simp] theorem State.emit_payLen (s : State) (k : DiagKind) (op : Nibble) : (s.emit k op).payLen = s.payLen := rfl
@[simp] theorem State.emit_payRem (s : State) (k : DiagKind) (op : Nibble) : (s.emit k op).payRem = s.payRem := rfl
@[simp] theorem State.emit_wc (s : State) (k : DiagKind) (op : Nibble) : (s.emit k op).wc = s.wc := rfl
@[simp] theorem State.emit_blockX (s : State) (k : DiagKind) (op : Nibble) : (s.emit k op).blockX = s.blockX := rfl
@[simp] theorem State.emit_blockY (s : State) (k : DiagKind) (op : Nibble) : (s.emit k op).blockY = s.blockY := rfl
@[simp] theorem State.emit_dp (s : State) (k : DiagKind) (op : Nibble) : (s.emit k op).dp = s.dp := rfl
@[simp] theorem State.emit_dr (s : State) (k : DiagKind) (op : Nibble) : (s.emit k op).dr = s.dr := rfl
@[simp] theorem State.emit_status (s : State) (k : DiagKind) (op : Nibble) : (s.emit k op).status = s.status := rfl
@[simp] theorem State.emit_faultOp (s : State) (k : DiagKind) (op : Nibble) : (s.emit k op).faultOp = s.faultOp := rfl
@[simp] theorem State.emit_faultX (s : State) (k : DiagKind) (op : Nibble) : (s.emit k op).faultX = s.faultX := rfl
@[simp] theorem State.emit_faultY (s : State) (k : DiagKind) (op : Nibble) : (s.emit k op).faultY = s.faultY := rfl
@[simp] theorem State.emit_faultDp (s : State) (k : DiagKind) (op : Nibble) : (s.emit k op).faultDp = s.faultDp := rfl
@[simp] theorem State.emit_wrOob (s : State) (k : DiagKind) (op : Nibble) : (s.emit k op).wrOob = s.wrOob := rfl
@[simp] theorem State.emit_srcOob (s : State) (k : DiagKind) (op : Nibble) : (s.emit k op).srcOob = s.srcOob := rfl
@[simp] theorem State.emit_cur (s : State) (k : DiagKind) (op : Nibble) : (s.emit k op).cur = s.cur := rfl
@[simp] theorem State.emit_hist (s : State) (k : DiagKind) (op : Nibble) : (s.emit k op).hist = s.hist := rfl
@[simp] theorem State.emit_map (s : State) (k : DiagKind) (op : Nibble) : (s.emit k op).map = s.map := rfl
@[simp] theorem State.emit_pay (s : State) (k : DiagKind) (op : Nibble) : (s.emit k op).pay = s.pay := rfl
@[simp] theorem State.emit_diag (s : State) (k : DiagKind) (op : Nibble) : (s.emit k op).diag = s.diag ++ [⟨k, op, s.blockX, s.blockY, s.wc⟩] := rfl
@[simp] theorem State.emit_host (s : State) (k : DiagKind) (op : Nibble) : (s.emit k op).host = s.host := rfl
@[simp] theorem State.emit_readData (s : State) (k : DiagKind) (op : Nibble) : (s.emit k op).readData = s.readData := rfl
@[simp] theorem State.emit_powerUp (s : State) (k : DiagKind) (op : Nibble) : (s.emit k op).powerUp = s.powerUp := rfl
@[simp] theorem State.emit_draws (s : State) (k : DiagKind) (op : Nibble) : (s.emit k op).draws = s.draws := rfl
@[simp] theorem State.emit_w (s : State) (k : DiagKind) (op : Nibble) : (s.emit k op).w = s.w := rfl
@[simp] theorem State.emit_h (s : State) (k : DiagKind) (op : Nibble) : (s.emit k op).h = s.h := rfl
@[simp] theorem State.emit_nbx (s : State) (k : DiagKind) (op : Nibble) : (s.emit k op).nbx = s.nbx := rfl
@[simp] theorem State.emit_nby (s : State) (k : DiagKind) (op : Nibble) : (s.emit k op).nby = s.nby := rfl
@[simp] theorem State.emit_frame (s : State) (k : DiagKind) (op : Nibble) : (s.emit k op).frame = s.frame := rfl
@[simp] theorem State.emit_legal (s : State) (k : DiagKind) (op : Nibble) : (s.emit k op).legal = s.legal := rfl

/-! ### `consume` -/

@[simp] theorem consume_width (n : Nat) (s : State) : (consume n s).width = s.width := rfl
@[simp] theorem consume_height (n : Nat) (s : State) : (consume n s).height = s.height := rfl
@[simp] theorem consume_payLen (n : Nat) (s : State) : (consume n s).payLen = s.payLen := rfl
@[simp] theorem consume_payRem (n : Nat) (s : State) : (consume n s).payRem = s.payRem := rfl
@[simp] theorem consume_wc (n : Nat) (s : State) : (consume n s).wc = s.wc := rfl
@[simp] theorem consume_blockX (n : Nat) (s : State) : (consume n s).blockX = s.blockX := rfl
@[simp] theorem consume_blockY (n : Nat) (s : State) : (consume n s).blockY = s.blockY := rfl
@[simp] theorem consume_dp (n : Nat) (s : State) : (consume n s).dp = s.dp + n := rfl
@[simp] theorem consume_dr (n : Nat) (s : State) : (consume n s).dr = s.dr - n := rfl
@[simp] theorem consume_status (n : Nat) (s : State) : (consume n s).status = s.status := rfl
@[simp] theorem consume_faultOp (n : Nat) (s : State) : (consume n s).faultOp = s.faultOp := rfl
@[simp] theorem consume_faultX (n : Nat) (s : State) : (consume n s).faultX = s.faultX := rfl
@[simp] theorem consume_faultY (n : Nat) (s : State) : (consume n s).faultY = s.faultY := rfl
@[simp] theorem consume_faultDp (n : Nat) (s : State) : (consume n s).faultDp = s.faultDp := rfl
@[simp] theorem consume_wrOob (n : Nat) (s : State) : (consume n s).wrOob = s.wrOob := rfl
@[simp] theorem consume_srcOob (n : Nat) (s : State) : (consume n s).srcOob = s.srcOob := rfl
@[simp] theorem consume_cur (n : Nat) (s : State) : (consume n s).cur = s.cur := rfl
@[simp] theorem consume_hist (n : Nat) (s : State) : (consume n s).hist = s.hist := rfl
@[simp] theorem consume_map (n : Nat) (s : State) : (consume n s).map = s.map := rfl
@[simp] theorem consume_pay (n : Nat) (s : State) : (consume n s).pay = s.pay := rfl
@[simp] theorem consume_diag (n : Nat) (s : State) : (consume n s).diag = s.diag := rfl
@[simp] theorem consume_host (n : Nat) (s : State) : (consume n s).host = s.host := rfl
@[simp] theorem consume_readData (n : Nat) (s : State) : (consume n s).readData = s.readData := rfl
@[simp] theorem consume_powerUp (n : Nat) (s : State) : (consume n s).powerUp = s.powerUp := rfl
@[simp] theorem consume_draws (n : Nat) (s : State) : (consume n s).draws = s.draws := rfl
@[simp] theorem consume_w (n : Nat) (s : State) : (consume n s).w = s.w := rfl
@[simp] theorem consume_h (n : Nat) (s : State) : (consume n s).h = s.h := rfl
@[simp] theorem consume_nbx (n : Nat) (s : State) : (consume n s).nbx = s.nbx := rfl
@[simp] theorem consume_nby (n : Nat) (s : State) : (consume n s).nby = s.nby := rfl
@[simp] theorem consume_frame (n : Nat) (s : State) : (consume n s).frame = s.frame := rfl
@[simp] theorem consume_legal (n : Nat) (s : State) : (consume n s).legal = s.legal := rfl

/-! ### `advanceBlock` -/

@[simp] theorem advanceBlock_width (s : State) : (advanceBlock s).width = s.width := rfl
@[simp] theorem advanceBlock_height (s : State) : (advanceBlock s).height = s.height := rfl
@[simp] theorem advanceBlock_payLen (s : State) : (advanceBlock s).payLen = s.payLen := rfl
@[simp] theorem advanceBlock_payRem (s : State) : (advanceBlock s).payRem = s.payRem := rfl
@[simp] theorem advanceBlock_wc (s : State) : (advanceBlock s).wc = s.wc + 8 := rfl
@[simp] theorem advanceBlock_blockX (s : State) : (advanceBlock s).blockX = s.blockX := rfl
@[simp] theorem advanceBlock_blockY (s : State) : (advanceBlock s).blockY = s.blockY := rfl
@[simp] theorem advanceBlock_dp (s : State) : (advanceBlock s).dp = s.dp := rfl
@[simp] theorem advanceBlock_dr (s : State) : (advanceBlock s).dr = s.dr := rfl
@[simp] theorem advanceBlock_status (s : State) : (advanceBlock s).status = s.status := rfl
@[simp] theorem advanceBlock_faultOp (s : State) : (advanceBlock s).faultOp = s.faultOp := rfl
@[simp] theorem advanceBlock_faultX (s : State) : (advanceBlock s).faultX = s.faultX := rfl
@[simp] theorem advanceBlock_faultY (s : State) : (advanceBlock s).faultY = s.faultY := rfl
@[simp] theorem advanceBlock_faultDp (s : State) : (advanceBlock s).faultDp = s.faultDp := rfl
@[simp] theorem advanceBlock_wrOob (s : State) : (advanceBlock s).wrOob = s.wrOob := rfl
@[simp] theorem advanceBlock_srcOob (s : State) : (advanceBlock s).srcOob = s.srcOob := rfl
@[simp] theorem advanceBlock_cur (s : State) : (advanceBlock s).cur = s.cur := rfl
@[simp] theorem advanceBlock_hist (s : State) : (advanceBlock s).hist = s.hist := rfl
@[simp] theorem advanceBlock_map (s : State) : (advanceBlock s).map = s.map := rfl
@[simp] theorem advanceBlock_pay (s : State) : (advanceBlock s).pay = s.pay := rfl
@[simp] theorem advanceBlock_diag (s : State) : (advanceBlock s).diag = s.diag := rfl
@[simp] theorem advanceBlock_host (s : State) : (advanceBlock s).host = s.host := rfl
@[simp] theorem advanceBlock_readData (s : State) : (advanceBlock s).readData = s.readData := rfl
@[simp] theorem advanceBlock_powerUp (s : State) : (advanceBlock s).powerUp = s.powerUp := rfl
@[simp] theorem advanceBlock_draws (s : State) : (advanceBlock s).draws = s.draws := rfl
@[simp] theorem advanceBlock_w (s : State) : (advanceBlock s).w = s.w := rfl
@[simp] theorem advanceBlock_h (s : State) : (advanceBlock s).h = s.h := rfl
@[simp] theorem advanceBlock_nbx (s : State) : (advanceBlock s).nbx = s.nbx := rfl
@[simp] theorem advanceBlock_nby (s : State) : (advanceBlock s).nby = s.nby := rfl
@[simp] theorem advanceBlock_frame (s : State) : (advanceBlock s).frame = s.frame := rfl
@[simp] theorem advanceBlock_legal (s : State) : (advanceBlock s).legal = s.legal := rfl

/-! ### `clearLatches` -/

@[simp] theorem clearLatches_width (s : State) : (clearLatches s).width = s.width := rfl
@[simp] theorem clearLatches_height (s : State) : (clearLatches s).height = s.height := rfl
@[simp] theorem clearLatches_payLen (s : State) : (clearLatches s).payLen = s.payLen := rfl
@[simp] theorem clearLatches_payRem (s : State) : (clearLatches s).payRem = s.payRem := rfl
@[simp] theorem clearLatches_wc (s : State) : (clearLatches s).wc = s.wc := rfl
@[simp] theorem clearLatches_blockX (s : State) : (clearLatches s).blockX = s.blockX := rfl
@[simp] theorem clearLatches_blockY (s : State) : (clearLatches s).blockY = s.blockY := rfl
@[simp] theorem clearLatches_dp (s : State) : (clearLatches s).dp = s.dp := rfl
@[simp] theorem clearLatches_dr (s : State) : (clearLatches s).dr = s.dr := rfl
@[simp] theorem clearLatches_status (s : State) : (clearLatches s).status = s.status := rfl
@[simp] theorem clearLatches_faultOp (s : State) : (clearLatches s).faultOp = s.faultOp := rfl
@[simp] theorem clearLatches_faultX (s : State) : (clearLatches s).faultX = s.faultX := rfl
@[simp] theorem clearLatches_faultY (s : State) : (clearLatches s).faultY = s.faultY := rfl
@[simp] theorem clearLatches_faultDp (s : State) : (clearLatches s).faultDp = s.faultDp := rfl
@[simp] theorem clearLatches_wrOob (s : State) : (clearLatches s).wrOob = false := rfl
@[simp] theorem clearLatches_srcOob (s : State) : (clearLatches s).srcOob = false := rfl
@[simp] theorem clearLatches_cur (s : State) : (clearLatches s).cur = s.cur := rfl
@[simp] theorem clearLatches_hist (s : State) : (clearLatches s).hist = s.hist := rfl
@[simp] theorem clearLatches_map (s : State) : (clearLatches s).map = s.map := rfl
@[simp] theorem clearLatches_pay (s : State) : (clearLatches s).pay = s.pay := rfl
@[simp] theorem clearLatches_diag (s : State) : (clearLatches s).diag = s.diag := rfl
@[simp] theorem clearLatches_host (s : State) : (clearLatches s).host = s.host := rfl
@[simp] theorem clearLatches_readData (s : State) : (clearLatches s).readData = s.readData := rfl
@[simp] theorem clearLatches_powerUp (s : State) : (clearLatches s).powerUp = s.powerUp := rfl
@[simp] theorem clearLatches_draws (s : State) : (clearLatches s).draws = s.draws := rfl
@[simp] theorem clearLatches_w (s : State) : (clearLatches s).w = s.w := rfl
@[simp] theorem clearLatches_h (s : State) : (clearLatches s).h = s.h := rfl
@[simp] theorem clearLatches_nbx (s : State) : (clearLatches s).nbx = s.nbx := rfl
@[simp] theorem clearLatches_nby (s : State) : (clearLatches s).nby = s.nby := rfl
@[simp] theorem clearLatches_frame (s : State) : (clearLatches s).frame = s.frame := rfl
@[simp] theorem clearLatches_legal (s : State) : (clearLatches s).legal = s.legal := rfl

/-! ### `endNormal` -/

@[simp] theorem endNormal_width (s : State) : (endNormal s).width = s.width := rfl
@[simp] theorem endNormal_height (s : State) : (endNormal s).height = s.height := rfl
@[simp] theorem endNormal_payLen (s : State) : (endNormal s).payLen = s.payLen := rfl
@[simp] theorem endNormal_payRem (s : State) : (endNormal s).payRem = s.payRem := rfl
@[simp] theorem endNormal_wc (s : State) : (endNormal s).wc = s.wc := rfl
@[simp] theorem endNormal_blockX (s : State) : (endNormal s).blockX = s.blockX := rfl
@[simp] theorem endNormal_blockY (s : State) : (endNormal s).blockY = s.blockY := rfl
@[simp] theorem endNormal_dp (s : State) : (endNormal s).dp = s.dp := rfl
@[simp] theorem endNormal_dr (s : State) : (endNormal s).dr = s.dr := rfl
@[simp] theorem endNormal_faultOp (s : State) : (endNormal s).faultOp = s.faultOp := rfl
@[simp] theorem endNormal_faultX (s : State) : (endNormal s).faultX = s.faultX := rfl
@[simp] theorem endNormal_faultY (s : State) : (endNormal s).faultY = s.faultY := rfl
@[simp] theorem endNormal_faultDp (s : State) : (endNormal s).faultDp = s.faultDp := rfl
@[simp] theorem endNormal_wrOob (s : State) : (endNormal s).wrOob = s.wrOob := rfl
@[simp] theorem endNormal_srcOob (s : State) : (endNormal s).srcOob = s.srcOob := rfl
@[simp] theorem endNormal_cur (s : State) : (endNormal s).cur = s.cur := rfl
@[simp] theorem endNormal_hist (s : State) : (endNormal s).hist = s.hist := rfl
@[simp] theorem endNormal_map (s : State) : (endNormal s).map = s.map := rfl
@[simp] theorem endNormal_pay (s : State) : (endNormal s).pay = s.pay := rfl
@[simp] theorem endNormal_diag (s : State) : (endNormal s).diag = s.diag := rfl
@[simp] theorem endNormal_host (s : State) : (endNormal s).host = s.host := rfl
@[simp] theorem endNormal_readData (s : State) : (endNormal s).readData = s.readData := rfl
@[simp] theorem endNormal_powerUp (s : State) : (endNormal s).powerUp = s.powerUp := rfl
@[simp] theorem endNormal_draws (s : State) : (endNormal s).draws = s.draws := rfl
@[simp] theorem endNormal_w (s : State) : (endNormal s).w = s.w := rfl
@[simp] theorem endNormal_h (s : State) : (endNormal s).h = s.h := rfl
@[simp] theorem endNormal_nbx (s : State) : (endNormal s).nbx = s.nbx := rfl
@[simp] theorem endNormal_nby (s : State) : (endNormal s).nby = s.nby := rfl
@[simp] theorem endNormal_frame (s : State) : (endNormal s).frame = s.frame := rfl
@[simp] theorem endNormal_legal (s : State) : (endNormal s).legal = s.legal := rfl

/-! ### `endEarly` -/

@[simp] theorem endEarly_width (s : State) : (endEarly s).width = s.width := rfl
@[simp] theorem endEarly_height (s : State) : (endEarly s).height = s.height := rfl
@[simp] theorem endEarly_payLen (s : State) : (endEarly s).payLen = s.payLen := rfl
@[simp] theorem endEarly_payRem (s : State) : (endEarly s).payRem = s.payRem := rfl
@[simp] theorem endEarly_wc (s : State) : (endEarly s).wc = s.wc := rfl
@[simp] theorem endEarly_blockX (s : State) : (endEarly s).blockX = s.blockX := rfl
@[simp] theorem endEarly_blockY (s : State) : (endEarly s).blockY = s.blockY := rfl
@[simp] theorem endEarly_dp (s : State) : (endEarly s).dp = s.dp := rfl
@[simp] theorem endEarly_dr (s : State) : (endEarly s).dr = s.dr := rfl
@[simp] theorem endEarly_faultOp (s : State) : (endEarly s).faultOp = s.faultOp := rfl
@[simp] theorem endEarly_faultX (s : State) : (endEarly s).faultX = s.faultX := rfl
@[simp] theorem endEarly_faultY (s : State) : (endEarly s).faultY = s.faultY := rfl
@[simp] theorem endEarly_faultDp (s : State) : (endEarly s).faultDp = s.faultDp := rfl
@[simp] theorem endEarly_wrOob (s : State) : (endEarly s).wrOob = s.wrOob := rfl
@[simp] theorem endEarly_srcOob (s : State) : (endEarly s).srcOob = s.srcOob := rfl
@[simp] theorem endEarly_cur (s : State) : (endEarly s).cur = s.cur := rfl
@[simp] theorem endEarly_hist (s : State) : (endEarly s).hist = s.hist := rfl
@[simp] theorem endEarly_map (s : State) : (endEarly s).map = s.map := rfl
@[simp] theorem endEarly_pay (s : State) : (endEarly s).pay = s.pay := rfl
@[simp] theorem endEarly_diag (s : State) : (endEarly s).diag = s.diag := rfl
@[simp] theorem endEarly_host (s : State) : (endEarly s).host = s.host := rfl
@[simp] theorem endEarly_readData (s : State) : (endEarly s).readData = s.readData := rfl
@[simp] theorem endEarly_powerUp (s : State) : (endEarly s).powerUp = s.powerUp := rfl
@[simp] theorem endEarly_draws (s : State) : (endEarly s).draws = s.draws := rfl
@[simp] theorem endEarly_w (s : State) : (endEarly s).w = s.w := rfl
@[simp] theorem endEarly_h (s : State) : (endEarly s).h = s.h := rfl
@[simp] theorem endEarly_nbx (s : State) : (endEarly s).nbx = s.nbx := rfl
@[simp] theorem endEarly_nby (s : State) : (endEarly s).nby = s.nby := rfl
@[simp] theorem endEarly_frame (s : State) : (endEarly s).frame = s.frame := rfl
@[simp] theorem endEarly_legal (s : State) : (endEarly s).legal = s.legal := rfl

/-! ### `raisePayloadOverrun` -/

@[simp] theorem raisePayloadOverrun_width (op : Nibble) (s : State) : (raisePayloadOverrun op s).width = s.width := rfl
@[simp] theorem raisePayloadOverrun_height (op : Nibble) (s : State) : (raisePayloadOverrun op s).height = s.height := rfl
@[simp] theorem raisePayloadOverrun_payLen (op : Nibble) (s : State) : (raisePayloadOverrun op s).payLen = s.payLen := rfl
@[simp] theorem raisePayloadOverrun_payRem (op : Nibble) (s : State) : (raisePayloadOverrun op s).payRem = s.payRem := rfl
@[simp] theorem raisePayloadOverrun_wc (op : Nibble) (s : State) : (raisePayloadOverrun op s).wc = s.wc := rfl
@[simp] theorem raisePayloadOverrun_blockX (op : Nibble) (s : State) : (raisePayloadOverrun op s).blockX = s.blockX := rfl
@[simp] theorem raisePayloadOverrun_blockY (op : Nibble) (s : State) : (raisePayloadOverrun op s).blockY = s.blockY := rfl
@[simp] theorem raisePayloadOverrun_dp (op : Nibble) (s : State) : (raisePayloadOverrun op s).dp = s.dp := rfl
@[simp] theorem raisePayloadOverrun_dr (op : Nibble) (s : State) : (raisePayloadOverrun op s).dr = s.dr := rfl
@[simp] theorem raisePayloadOverrun_faultOp (op : Nibble) (s : State) : (raisePayloadOverrun op s).faultOp = op := rfl
@[simp] theorem raisePayloadOverrun_faultX (op : Nibble) (s : State) : (raisePayloadOverrun op s).faultX = s.blockX := rfl
@[simp] theorem raisePayloadOverrun_faultY (op : Nibble) (s : State) : (raisePayloadOverrun op s).faultY = s.blockY := rfl
@[simp] theorem raisePayloadOverrun_faultDp (op : Nibble) (s : State) : (raisePayloadOverrun op s).faultDp = s.dp := rfl
@[simp] theorem raisePayloadOverrun_wrOob (op : Nibble) (s : State) : (raisePayloadOverrun op s).wrOob = s.wrOob := rfl
@[simp] theorem raisePayloadOverrun_srcOob (op : Nibble) (s : State) : (raisePayloadOverrun op s).srcOob = s.srcOob := rfl
@[simp] theorem raisePayloadOverrun_cur (op : Nibble) (s : State) : (raisePayloadOverrun op s).cur = s.cur := rfl
@[simp] theorem raisePayloadOverrun_hist (op : Nibble) (s : State) : (raisePayloadOverrun op s).hist = s.hist := rfl
@[simp] theorem raisePayloadOverrun_map (op : Nibble) (s : State) : (raisePayloadOverrun op s).map = s.map := rfl
@[simp] theorem raisePayloadOverrun_pay (op : Nibble) (s : State) : (raisePayloadOverrun op s).pay = s.pay := rfl
@[simp] theorem raisePayloadOverrun_diag (op : Nibble) (s : State) : (raisePayloadOverrun op s).diag = s.diag := rfl
@[simp] theorem raisePayloadOverrun_host (op : Nibble) (s : State) : (raisePayloadOverrun op s).host = s.host := rfl
@[simp] theorem raisePayloadOverrun_readData (op : Nibble) (s : State) : (raisePayloadOverrun op s).readData = s.readData := rfl
@[simp] theorem raisePayloadOverrun_powerUp (op : Nibble) (s : State) : (raisePayloadOverrun op s).powerUp = s.powerUp := rfl
@[simp] theorem raisePayloadOverrun_draws (op : Nibble) (s : State) : (raisePayloadOverrun op s).draws = s.draws := rfl
@[simp] theorem raisePayloadOverrun_w (op : Nibble) (s : State) : (raisePayloadOverrun op s).w = s.w := rfl
@[simp] theorem raisePayloadOverrun_h (op : Nibble) (s : State) : (raisePayloadOverrun op s).h = s.h := rfl
@[simp] theorem raisePayloadOverrun_nbx (op : Nibble) (s : State) : (raisePayloadOverrun op s).nbx = s.nbx := rfl
@[simp] theorem raisePayloadOverrun_nby (op : Nibble) (s : State) : (raisePayloadOverrun op s).nby = s.nby := rfl
@[simp] theorem raisePayloadOverrun_frame (op : Nibble) (s : State) : (raisePayloadOverrun op s).frame = s.frame := rfl
@[simp] theorem raisePayloadOverrun_legal (op : Nibble) (s : State) : (raisePayloadOverrun op s).legal = s.legal := rfl

end Sys2Proof.Machine
end

