-- ==== Sys2Proof/Laws/Flags.lean ====
section
/-! SUPPORT. Laws of the status bits and of the end-of-dispatch checks: what each can change, said once. -/

namespace Sys2Proof.Machine

@[simp] theorem State.flag_setFlag (s : State) (f g : Flag) : (s.setFlag f).flag g = (s.flag g || f == g) := by
  cases f <;> cases g <;> simp [State.flag, Flag.bit]

@[simp] theorem State.flag_clearFlag (s : State) (f g : Flag) : (s.clearFlag f).flag g = (s.flag g && f != g) := by
  cases f <;> cases g <;> simp [State.flag, Flag.bit]

@[simp] theorem State.flag_emit (s : State) (k : DiagKind) (op : Nibble) (g : Flag) : (s.emit k op).flag g = s.flag g := rfl

@[simp] theorem flag_consume (n : Nat) (s : State) (g : Flag) : (consume n s).flag g = s.flag g := rfl

@[simp] theorem flag_advanceBlock (s : State) (g : Flag) : (advanceBlock s).flag g = s.flag g := rfl

@[simp] theorem flag_clearLatches (s : State) (g : Flag) : (clearLatches s).flag g = s.flag g := rfl

/-- The exception sets `PAY_OVR` and `FAIL`, clears `BUSY`, and leaves the other bits alone. -/
theorem flag_raisePayloadOverrun (op : Nibble) (s : State) (g : Flag) :
    (raisePayloadOverrun op s).flag g = (g != .busy && (s.flag g || g == .payOvr || g == .fail)) := by
  have h : (raisePayloadOverrun op s).flag g = (((s.setFlag .payOvr).setFlag .fail).clearFlag .busy).flag g := rfl
  rw [h, State.flag_clearFlag, State.flag_setFlag, State.flag_setFlag]
  cases hx : s.flag g <;> cases g <;> rfl

/-- `R267`, first line: only `STATUS` and `DIAG` can change. -/
theorem noteWrOob_eq (op : Nibble) (s : State) :
    noteWrOob op s = { s with
      status := if s.wrOob then s.status ||| BitVec.twoPow 10 Flag.wrOob.bit else s.status
      diag := s.diag ++ if s.wrOob then [⟨.wrOob, op, s.blockX, s.blockY, s.wc⟩] else [] } := by
  cases s
  unfold noteWrOob
  split <;> simp_all [State.emit, State.setFlag]

/-- `R267`, second line: only `STATUS` and `DIAG` can change. -/
theorem noteSrcOob_eq (op : Nibble) (s : State) :
    noteSrcOob op s = { s with
      status := if s.srcOob then s.status ||| BitVec.twoPow 10 Flag.srcOob.bit else s.status
      diag := s.diag ++ if s.srcOob then [⟨.srcOob, op, s.blockX, s.blockY, s.wc⟩] else [] } := by
  cases s
  unfold noteSrcOob
  split <;> simp_all [State.emit, State.setFlag]

/-- `R267`, third line: only `STATUS` can change. -/
theorem noteRemNeg_eq (s : State) :
    noteRemNeg s = { s with
      status := if s.dr < 0 then s.status ||| BitVec.twoPow 10 Flag.remNeg.bit else s.status } := by
  unfold noteRemNeg
  split <;> simp [State.setFlag]

/-- `R268`: only `STATUS` and `DIAG` can change. -/
theorem noteWcOob_eq (op : Nibble) (s : State) :
    noteWcOob op s = { s with
      status := if s.frame ≤ s.wc then s.status ||| BitVec.twoPow 10 Flag.wcOob.bit else s.status
      diag := s.diag ++ if s.frame ≤ s.wc then [⟨.wcOob, op, s.blockX, s.blockY, s.wc⟩] else [] } := by
  unfold noteWcOob
  split <;> simp [State.emit, State.setFlag]

/-- Setting a bit of the status word when a condition holds, read back flag by flag. -/
theorem flag_of_status_or (s u : State) (c : Prop) [Decidable c] (f g : Flag)
    (h : u.status = if c then s.status ||| BitVec.twoPow 10 f.bit else s.status) :
    u.flag g = (s.flag g || (decide c && f == g)) := by
  have h1 : (s.setFlag f).flag g = (s.flag g || f == g) := State.flag_setFlag s f g
  simp only [State.flag] at *
  by_cases hc : c
  · simp only [hc, if_true] at h; simpa [h, hc] using h1
  · simp [h, hc]

end Sys2Proof.Machine
end

