-- ==== Sys2Proof/Laws/Memory.lean ====
section
/-! SUPPORT. Laws of memory: read after write, and every write keeps the canonical form. -/

namespace Sys2Proof.Machine

theorem Memory.find_write_same (m : Memory) (a : Nat) (v : Byte) :
    Memory.find (Memory.write m a v) a = some v := by
  induction m with
  | nil => simp [Memory.write, Memory.find]
  | cons e rest ih =>
    obtain ⟨b, w⟩ := e
    unfold Memory.write
    split
    · simp [Memory.find]
    · split
      · simp [Memory.find]
      · simp [Memory.find, *]

theorem Memory.find_write_other (m : Memory) {a x : Nat} (v : Byte) (h : x ≠ a) :
    Memory.find (Memory.write m a v) x = Memory.find m x := by
  induction m with
  | nil => simp [Memory.write, Memory.find, h]
  | cons e rest ih =>
    obtain ⟨b, w⟩ := e
    unfold Memory.write
    split
    · simp [Memory.find, h]
    · split
      · next hab => subst hab; simp [Memory.find, h]
      · simp [Memory.find, ih]

@[simp] theorem Memory.read_write_same (p : Nat) (sp : Space) (m : Memory) (a : Nat) (v : Byte) :
    Memory.read p sp (Memory.write m a v) a = v := by
  simp [Memory.read, Memory.find_write_same]

theorem Memory.read_write_other (p : Nat) (sp : Space) (m : Memory) {a x : Nat} (v : Byte) (h : x ≠ a) :
    Memory.read p sp (Memory.write m a v) x = Memory.read p sp m x := by
  simp [Memory.read, Memory.find_write_other m v h]

theorem Memory.read_write (p : Nat) (sp : Space) (m : Memory) (a x : Nat) (v : Byte) :
    Memory.read p sp (Memory.write m a v) x = if x = a then v else Memory.read p sp m x := by
  split
  · next h => subst h; simp
  · next h => exact Memory.read_write_other p sp m v h

theorem Memory.wfFrom_write (m : Memory) (low a : Nat) (v : Byte) (hl : low ≤ a) (ha : a < spaceBound)
    (hm : Memory.wfFrom low m = true) : Memory.wfFrom low (Memory.write m a v) = true := by
  induction m generalizing low with
  | nil => simp [Memory.write, Memory.wfFrom, hl, ha]
  | cons e rest ih =>
    obtain ⟨b, w⟩ := e
    simp only [Memory.wfFrom, Bool.and_eq_true, decide_eq_true_eq] at hm
    obtain ⟨⟨hlb, hb⟩, hr⟩ := hm
    unfold Memory.write
    split
    · next h =>
      have h' : a + 1 ≤ b := h
      simp [Memory.wfFrom, hl, ha, h', hb, hr]
    · split
      · next h => subst h; simp [Memory.wfFrom, hl, ha, hr]
      · next h1 h2 =>
        have h' : b + 1 ≤ a := by omega
        simp [Memory.wfFrom, hlb, hb, ih (b + 1) h' hr]

/-- Every write below the bound keeps the canonical form. -/
theorem Memory.wf_write (m : Memory) (a : Nat) (v : Byte) (ha : a < spaceBound) (hm : Memory.wf m = true) :
    Memory.wf (Memory.write m a v) = true :=
  Memory.wfFrom_write m 0 a v (Nat.zero_le a) ha hm

theorem Memory.wf_nil : Memory.wf [] = true := rfl

end Sys2Proof.Machine
end

