-- ==== Sys2Proof/Laws/Ops.lean ====
section
/-! SUPPORT. One lemma per shared operation, saying once everything it can do: the checked write, a list of writes, a byte
copy, the block copy, the dispatch step. -/

namespace Sys2Proof.Machine

/-! ### The checked write -/

/-- `CurWrite`: the one byte of `CUR`, or the latch; nothing else. -/
theorem curWrite_eq (a : Nat) (v : Byte) (s : State) :
    curWrite a v s = { s with
      cur := if a < s.frame then Memory.write s.cur a v else s.cur
      wrOob := if a < s.frame then s.wrOob else true } := by
  unfold curWrite
  split <;> simp

@[simp] theorem curWrite_frame (a : Nat) (v : Byte) (s : State) : (curWrite a v s).frame = s.frame := by
  simp [curWrite_eq, State.frame, State.w, State.h]

@[simp] theorem curWrite_powerUp (a : Nat) (v : Byte) (s : State) : (curWrite a v s).powerUp = s.powerUp := by
  simp [curWrite_eq]

@[simp] theorem curWrite_w (a : Nat) (v : Byte) (s : State) : (curWrite a v s).w = s.w := by
  simp [curWrite_eq, State.w]

@[simp] theorem curWrite_wc (a : Nat) (v : Byte) (s : State) : (curWrite a v s).wc = s.wc := by
  simp [curWrite_eq]

@[simp] theorem curWrite_wrOob (a : Nat) (v : Byte) (s : State) :
    (curWrite a v s).wrOob = (s.wrOob || decide (s.frame ≤ a)) := by
  by_cases h : a < s.frame
  · simp [curWrite_eq, h]
  · simp [curWrite_eq, h, Nat.le_of_not_lt h]

/-- The byte of `CUR` at any index after one checked write. -/
theorem curWrite_curByte (a x : Nat) (v : Byte) (s : State) :
    (curWrite a v s).curByte x = if x = a ∧ a < s.frame then v else s.curByte x := by
  unfold curWrite
  by_cases h : a < s.frame
  · simp [h, State.curByte, Memory.read_write]
  · simp [h, State.curByte]

/-- A frame buffer has fewer bytes than a space can hold. -/
theorem State.frame_lt (s : State) : s.frame < spaceBound := by
  have hw : s.width.toNat < 2 ^ 16 := s.width.isLt
  have hh : s.height.toNat < 2 ^ 16 := s.height.isLt
  have h1 : s.frame ≤ (2 ^ 16 - 1) * (2 ^ 16 - 1) :=
    Nat.mul_le_mul (Nat.le_sub_one_of_lt hw) (Nat.le_sub_one_of_lt hh)
  exact Nat.lt_of_le_of_lt h1 (by decide)

/-- A checked write keeps the canonical form. -/
theorem curWrite_wf (a : Nat) (v : Byte) (s : State) (h : Memory.wf s.cur = true) :
    Memory.wf (curWrite a v s).cur = true := by
  unfold curWrite
  split
  · next ha => exact Memory.wf_write _ _ _ (Nat.lt_trans ha s.frame_lt) h
  · exact h

/-! ### A list of writes -/

@[simp] theorem curWrites_nil (s : State) : curWrites [] s = s := rfl

@[simp] theorem curWrites_cons (p : Nat × Byte) (ws : List (Nat × Byte)) (s : State) :
    curWrites (p :: ws) s = curWrites ws (curWrite p.1 p.2 s) := rfl

/-- A list of writes changes `CUR` and `wr_oob` only. -/
theorem curWrites_eq (ws : List (Nat × Byte)) (s : State) :
    curWrites ws s = { s with cur := (curWrites ws s).cur, wrOob := (curWrites ws s).wrOob } := by
  induction ws generalizing s with
  | nil => rfl
  | cons p ws ih =>
    rw [curWrites_cons, ih]
    simp [curWrite_eq]

/-- `wr_oob` after a list of writes: some index was outside the buffer. -/
theorem curWrites_wrOob (ws : List (Nat × Byte)) (s : State) :
    (curWrites ws s).wrOob = (s.wrOob || ws.any fun p => decide (s.frame ≤ p.1)) := by
  induction ws generalizing s with
  | nil => simp
  | cons p ws ih => simp [ih, Bool.or_assoc]

/-- A byte no write of the list names, or one outside the buffer, reads as before. -/
theorem curWrites_curByte_other (ws : List (Nat × Byte)) (s : State) (a : Nat)
    (h : s.frame ≤ a ∨ ∀ p ∈ ws, p.1 ≠ a) : (curWrites ws s).curByte a = s.curByte a := by
  induction ws generalizing s with
  | nil => rfl
  | cons p ws ih =>
    rw [curWrites_cons, ih, curWrite_curByte]
    · rcases h with h | h
      · rw [if_neg]
        rintro ⟨rfl, h'⟩
        exact absurd h' (Nat.not_lt.mpr h)
      · rw [if_neg]
        rintro ⟨h', -⟩
        exact h p (by simp) h'.symm
    · rcases h with h | h
      · exact .inl (by simpa using h)
      · exact .inr fun q hq => h q (by simp [hq])

/-- A byte inside the buffer that the list writes, always with the same value, reads as that value. -/
theorem curWrites_curByte_same (ws : List (Nat × Byte)) (s : State) (a : Nat) (v : Byte) (ha : a < s.frame)
    (hmem : ∃ p ∈ ws, p.1 = a) (hval : ∀ p ∈ ws, p.1 = a → p.2 = v) : (curWrites ws s).curByte a = v := by
  induction ws generalizing s with
  | nil => simp at hmem
  | cons p ws ih =>
    rw [curWrites_cons]
    by_cases hlater : ∃ q ∈ ws, q.1 = a
    · exact ih _ (by simpa using ha) hlater fun q hq => hval q (by simp [hq])
    · have hp : p.1 = a := by
        obtain ⟨q, hq, rfl⟩ := hmem
        rcases List.mem_cons.mp hq with rfl | hq
        · rfl
        · exact absurd ⟨q, hq, rfl⟩ hlater
      rw [curWrites_curByte_other _ _ _ (.inr fun q hq hqa => hlater ⟨q, hq, hqa⟩), curWrite_curByte,
        if_pos ⟨hp.symm, hp ▸ ha⟩]
      exact hval p (by simp) hp

/-- A list of writes keeps the canonical form. -/
theorem curWrites_wf (ws : List (Nat × Byte)) (s : State) (h : Memory.wf s.cur = true) :
    Memory.wf (curWrites ws s).cur = true := by
  induction ws generalizing s with
  | nil => exact h
  | cons p ws ih => exact ih _ (curWrite_wf _ _ _ h)

/-! ### The block copy -/

/-- One byte of a copy changes `CUR` and the two latches only. -/
theorem copyByte_eq (src : State → Int → Option Byte) (off : Int) (r c : Nat) (s : State) :
    copyByte src off r c s = { s with
      cur := (copyByte src off r c s).cur
      wrOob := (copyByte src off r c s).wrOob
      srcOob := (copyByte src off r c s).srcOob } := by
  unfold copyByte
  split
  · simp [curWrite_eq]
  · rfl

/-- A fold of byte copies changes `CUR` and the two latches only. -/
theorem copyBytes_eq (src : State → Int → Option Byte) (off : Int) (ps : List (Nat × Nat)) (s : State) :
    ps.foldl (fun t p => copyByte src off p.1 p.2 t) s = { s with
      cur := (ps.foldl (fun t p => copyByte src off p.1 p.2 t) s).cur
      wrOob := (ps.foldl (fun t p => copyByte src off p.1 p.2 t) s).wrOob
      srcOob := (ps.foldl (fun t p => copyByte src off p.1 p.2 t) s).srcOob } := by
  induction ps generalizing s with
  | nil => rfl
  | cons p ps ih =>
    rw [List.foldl_cons, ih]
    rw [copyByte_eq]

/-- A block copy changes `CUR` and the two latches only. -/
theorem blockCopy_eq (src : State → Int → Option Byte) (off : Int) (s : State) :
    blockCopy src off s = { s with
      cur := (blockCopy src off s).cur
      wrOob := (blockCopy src off s).wrOob
      srcOob := (blockCopy src off s).srcOob } :=
  copyBytes_eq src off blockPixels s

/-- A byte copy keeps the canonical form. -/
theorem copyByte_wf (src : State → Int → Option Byte) (off : Int) (r c : Nat) (s : State)
    (h : Memory.wf s.cur = true) : Memory.wf (copyByte src off r c s).cur = true := by
  unfold copyByte
  split
  · exact curWrite_wf _ _ _ h
  · exact h

/-- A block copy keeps the canonical form. -/
theorem blockCopy_wf (src : State → Int → Option Byte) (off : Int) (s : State) (h : Memory.wf s.cur = true) :
    Memory.wf (blockCopy src off s).cur = true := by
  suffices ∀ (ps : List (Nat × Nat)) (s : State), Memory.wf s.cur = true →
      Memory.wf (ps.foldl (fun t p => copyByte src off p.1 p.2 t) s).cur = true from this blockPixels s h
  intro ps
  induction ps with
  | nil => exact fun _ h => h
  | cons p ps ih => exact fun s h => ih _ (copyByte_wf _ _ _ _ _ h)

/-! ### The dispatch step -/

/-- The dispatch of a form: the exception where the operands do not fit, else the body and the end of the dispatch. It
always answers a next state. -/
theorem dispatch_cases (f : Form) (execute : State → State) (s : State) :
    (0 < f.length ∧ s.payLen.toNat < s.dp + f.length
      ∧ dispatch f execute s = .next (raisePayloadOverrun f.opcode.nibble (clearLatches s)))
    ∨ ((f.length = 0 ∨ s.dp + f.length ≤ s.payLen.toNat)
      ∧ dispatch f execute s = .next (noteWcOob f.opcode.nibble (endOfBody f.opcode.nibble
          (consume f.length (advanceBlock (execute (clearLatches s))))))) := by
  unfold dispatch
  split
  · next h => exact .inl ⟨h.1, h.2, rfl⟩
  · next h => exact .inr ⟨by omega, rfl⟩

/-- Where the operands fit, the dispatch is the body and the end of the dispatch. -/
theorem dispatch_of_fits (f : Form) (execute : State → State) (s : State)
    (h : s.dp + f.length ≤ s.payLen.toNat) :
    dispatch f execute s = .next (noteWcOob f.opcode.nibble (endOfBody f.opcode.nibble
      (consume f.length (advanceBlock (execute (clearLatches s)))))) := by
  unfold dispatch
  rw [if_neg (by omega)]

/-- A form without operands always runs. -/
theorem dispatch_of_no_operands (f : Form) (execute : State → State) (s : State) (h : f.length = 0) :
    dispatch f execute s = .next (noteWcOob f.opcode.nibble (endOfBody f.opcode.nibble
      (consume f.length (advanceBlock (execute (clearLatches s)))))) := by
  unfold dispatch
  rw [if_neg (by omega)]

end Sys2Proof.Machine
end

