-- ==== Sys2Proof/Laws/Step.lean ====
section
/-! SUPPORT. What a step can do, said once: the walker's advance, a dispatch, and the whole step by whose turn it is. -/

namespace Sys2Proof.Machine

/-- The walker's advance: the next block of the row, the first of the next row, or the end of the frame. -/
theorem walkerAdvance_cases (s : State) :
    (s.blockX + 1 ≠ s.nbx ∧ walkerAdvance s = { s with blockX := s.blockX + 1 })
    ∨ (s.blockX + 1 = s.nbx ∧ s.blockY + 1 ≠ s.nby
        ∧ walkerAdvance s = { s with wc := s.wc + 7 * s.w, blockX := 0, blockY := s.blockY + 1 })
    ∨ (s.blockX + 1 = s.nbx ∧ s.blockY + 1 = s.nby
        ∧ walkerAdvance s = endNormal { s with wc := s.wc + 7 * s.w, blockX := 0, blockY := s.blockY + 1 }) := by
  unfold walkerAdvance
  split
  · next h =>
    by_cases hy : s.blockY + 1 = s.nby
    · exact .inr (.inr ⟨h, hy, by simp [hy]⟩)
    · exact .inr (.inl ⟨h, hy, by simp [hy]⟩)
  · next h => exact .inl ⟨h, rfl⟩

/-- `SKIP2` always answers a next state: an early end, or the end of a dispatch, with the write cursor of `skip2`. -/
theorem execSkip2_cases (s : State) :
    ((skip2 s).2 = true ∧ execSkip2 s
        = .next (endEarly (endOfBody Opcode.skip2.nibble { clearLatches s with wc := (skip2 s).1 })))
    ∨ ((skip2 s).2 = false ∧ execSkip2 s
        = .next (noteWcOob Opcode.skip2.nibble
            (endOfBody Opcode.skip2.nibble { clearLatches s with wc := (skip2 s).1 }))) := by
  unfold execSkip2
  rcases h : skip2 s with ⟨wc, early⟩
  cases early
  · exact .inr ⟨rfl, rfl⟩
  · exact .inl ⟨rfl, rfl⟩

/-- A dispatch answers a next state, whatever the form and the body. -/
theorem dispatch_next (f : Form) (execute : State → State) (s : State) : ∃ t, dispatch f execute s = .next t := by
  rcases dispatch_cases f execute s with ⟨_, _, h⟩ | ⟨_, h⟩ <;> exact ⟨_, h⟩

/-- Every meaning answers a next state. -/
theorem exec_next (i : Instr) (s : State) : ∃ t, exec i s = .next t := by
  cases i
  case skip2 => rcases execSkip2_cases s with ⟨_, h⟩ | ⟨_, h⟩ <;> exact ⟨_, h⟩
  all_goals
    simp only [exec, execCph, execKeep, execCpcf, execCpcb, execCphn, execCphw, execPat2Row, execPat2Cell,
      execPat2qQuad, execPat2qLr, execPat2qTb, execPat4U1x1, execPat4U2x2, execPat4U2x1, execPat4U1x2,
      execPat4qQuad, execPat4qLr, execPat4qTb, execRaw, execRaw2, execRaw4, execFill, execDith]
    exact dispatch_next _ _ s

/-- One block of a run: the exception where the payload ends first, else the instruction's meaning and the advance. -/
theorem runBlock_cases (s : State) :
    (decode (fetchOpcode s) (payloadWindow s) = .error .payloadTooShort
      ∧ runBlock s = .next (raisePayloadOverrun (fetchOpcode s) (clearLatches s)))
    ∨ ∃ i rest t, decode (fetchOpcode s) (payloadWindow s) = .ok (i, rest) ∧ exec i s = .next t
      ∧ runBlock s = .next (if t.flag .busy then walkerAdvance t else t) := by
  unfold runBlock
  rcases h : decode (fetchOpcode s) (payloadWindow s) with ⟨⟨⟩⟩ | ⟨i, rest⟩
  · exact .inl ⟨rfl, rfl⟩
  · obtain ⟨t, ht⟩ := exec_next i s
    exact .inr ⟨i, rest, t, rfl, ht, by simp [ht, afterDispatch]⟩

/-- The step of a machine with no host turn waiting is the decoder's. -/
theorem step_of_no_host {s : State} (h : s.host = []) : step s = decoderTurn s := by
  simp [step, turn, h]

/-- The step of a machine whose host passes is the decoder's, the turn spent. -/
theorem step_of_pass {s : State} {rest : List HostTurn} (h : s.host = .pass :: rest) :
    step s = decoderTurn { s with host := rest } := by
  simp [step, turn, h]

/-- The decoder's turn: a dispatch while busy, nothing while idle. -/
theorem decoderTurn_cases (s : State) :
    (s.flag .busy = true ∧ decoderTurn s = runBlock s) ∨ (s.flag .busy = false ∧ decoderTurn s = .next s) := by
  unfold decoderTurn
  cases h : s.flag .busy <;> simp

/-- Who made a step, and what the step was. -/
theorem step_cases (s : State) :
    (s.host = [] ∧ step s = decoderTurn s)
    ∨ ∃ rest, (s.host = .pass :: rest ∧ step s = decoderTurn { s with host := rest })
      ∨ (∃ n v, s.host = .writeReg n v :: rest ∧ step s = .next (writeRegister n v { s with host := rest }))
      ∨ (∃ n, s.host = .readReg n :: rest ∧ step s = .next (readRegister n { s with host := rest }))
      ∨ (∃ sp a v, s.host = .writeMem sp a v :: rest ∧ step s = hostWriteMem sp a v { s with host := rest })
      ∨ (∃ sp a, s.host = .readMem sp a :: rest ∧ step s = hostReadMem sp a { s with host := rest })
      ∨ (s.host = .reset :: rest ∧ step s = .next (hardReset { s with host := rest })) := by
  rcases h : s.host with _ | ⟨act, rest⟩
  · exact .inl ⟨rfl, by simp [step, turn, h]⟩
  · refine .inr ⟨rest, ?_⟩
    cases act <;> simp [step, turn, h]

end Sys2Proof.Machine
end

