-- ==== Sys2Proof/Laws/Dispatch.lean ====
section
/-! SUPPORT. The dispatch step in the terms of Sys2Proof/Safety.lean: what its end does, how a body that changes `CUR` and the
latches only completes, when the exception is taken, and when a list of writes paints the block. -/

namespace Sys2Proof.Machine

/-! ### The end of a dispatch -/

/-- The end of a dispatch changes `STATUS` and `DIAG` only. -/
theorem endOfDispatch_eq (op : Nibble) (u : State) :
    noteWcOob op (endOfBody op u) = { u with
      status := (noteWcOob op (endOfBody op u)).status
      diag := (noteWcOob op (endOfBody op u)).diag } := by
  simp only [noteWcOob_eq, endOfBody, noteRemNeg_eq, noteSrcOob_eq, noteWrOob_eq]

theorem endOfBody_eq (op : Nibble) (u : State) :
    endOfBody op u = { u with status := (endOfBody op u).status, diag := (endOfBody op u).diag } := by
  simp only [endOfBody, noteRemNeg_eq, noteSrcOob_eq, noteWrOob_eq]

/-- The flags after R267. -/
theorem flag_endOfBody (op : Nibble) (u : State) (f : Flag) :
    (endOfBody op u).flag f
      = (u.flag f || (u.wrOob && f == .wrOob) || (u.srcOob && f == .srcOob) || (decide (u.dr < 0) && f == .remNeg)) := by
  have h1 := flag_of_status_or u (noteWrOob op u) (u.wrOob = true) .wrOob f (by rw [noteWrOob_eq])
  have h2 := flag_of_status_or (noteWrOob op u) (noteSrcOob op (noteWrOob op u)) (u.srcOob = true) .srcOob f
    (by rw [noteSrcOob_eq, noteWrOob_eq])
  have h3 := flag_of_status_or (noteSrcOob op (noteWrOob op u)) (endOfBody op u) (u.dr < 0) .remNeg f
    (by simp only [endOfBody, noteRemNeg_eq, noteSrcOob_eq, noteWrOob_eq])
  rw [h3, h2, h1]
  cases u.wrOob <;> cases u.srcOob <;> cases f <;> simp <;> rfl

/-- The records of R267. -/
theorem diag_endOfBody (op : Nibble) (u : State) :
    (endOfBody op u).diag = u.diag
      ++ ((if u.wrOob then [⟨.wrOob, op, u.blockX, u.blockY, u.wc⟩] else [])
        ++ (if u.srcOob then [⟨.srcOob, op, u.blockX, u.blockY, u.wc⟩] else [])) := by
  simp only [endOfBody, noteRemNeg_eq, noteSrcOob_eq, noteWrOob_eq, List.append_assoc]

/-- The flags after R267 and R268. -/
theorem flag_endOfDispatch (op : Nibble) (u : State) (f : Flag) :
    (noteWcOob op (endOfBody op u)).flag f = (u.flag f || raisedBy u (noteWcOob op (endOfBody op u)) f) := by
  have h := flag_of_status_or (endOfBody op u) (noteWcOob op (endOfBody op u)) (u.frame ≤ u.wc) .wcOob f
    (by rw [noteWcOob_eq, endOfBody_eq]; rfl)
  have hw : (noteWcOob op (endOfBody op u)).wrOob = u.wrOob := by rw [endOfDispatch_eq]
  have hs : (noteWcOob op (endOfBody op u)).srcOob = u.srcOob := by rw [endOfDispatch_eq]
  have hd : (noteWcOob op (endOfBody op u)).dr = u.dr := by rw [endOfDispatch_eq]
  have hc : (noteWcOob op (endOfBody op u)).wc = u.wc := by rw [endOfDispatch_eq]
  rw [h, flag_endOfBody]
  simp only [raisedBy, hw, hs, hd, hc]
  generalize decide (u.dr < 0) = neg
  generalize decide (u.frame ≤ u.wc) = far
  generalize u.flag f = old
  cases u.wrOob <;> cases u.srcOob <;> cases neg <;> cases far <;> cases old <;> cases f <;> rfl

/-- The records after R267 and R268. -/
theorem diag_endOfDispatch (op : Nibble) (u : State) :
    (noteWcOob op (endOfBody op u)).diag = u.diag ++ dispatchRecords op u (noteWcOob op (endOfBody op u)) true := by
  have h : (noteWcOob op (endOfBody op u)).diag = (endOfBody op u).diag
      ++ if u.frame ≤ u.wc then [⟨.wcOob, op, u.blockX, u.blockY, u.wc⟩] else [] := by
    rw [noteWcOob_eq, endOfBody_eq]; rfl
  have hw : (noteWcOob op (endOfBody op u)).wrOob = u.wrOob := by rw [endOfDispatch_eq]
  have hs : (noteWcOob op (endOfBody op u)).srcOob = u.srcOob := by rw [endOfDispatch_eq]
  have hc : (noteWcOob op (endOfBody op u)).wc = u.wc := by rw [endOfDispatch_eq]
  rw [h, diag_endOfBody]
  simp only [dispatchRecords, hw, hs, hc, Bool.true_and, decide_eq_true_eq, List.append_assoc]

/-! ### A dispatch that completes, and one that overruns -/

/-- A body that changes `CUR` and the latches only, its operands in the payload, completes: it advances, and `CUR` and the
latches are what the body made them. -/
theorem dispatch_advances (f : Form) (execute : State → State) (s : State)
    (hbody : ∀ u, execute u = { u with
      cur := (execute u).cur, wrOob := (execute u).wrOob, srcOob := (execute u).srcOob })
    (hfits : f.length = 0 ∨ s.fits f.length) :
    ∃ t, dispatch f execute s = .next t ∧ Advances f.opcode.nibble f.length s t
      ∧ t.cur = (execute (clearLatches s)).cur ∧ t.wrOob = (execute (clearLatches s)).wrOob
      ∧ t.srcOob = (execute (clearLatches s)).srcOob := by
  have hrun : dispatch f execute s = .next (noteWcOob f.opcode.nibble (endOfBody f.opcode.nibble
      (consume f.length (advanceBlock (execute (clearLatches s)))))) := by
    rcases hfits with h | h
    · exact dispatch_of_no_operands f execute s h
    · exact dispatch_of_fits f execute s h
  generalize hu : consume f.length (advanceBlock (execute (clearLatches s))) = u at hrun
  have he := hbody (clearLatches s)
  refine ⟨_, hrun, ?_, ?_, ?_, ?_⟩
  · have hflag : ∀ g, u.flag g = s.flag g := fun g => by rw [← hu, he]; rfl
    have hdiag : u.diag = s.diag := by rw [← hu, he]; rfl
    have hx : u.blockX = s.blockX := by rw [← hu, he]; rfl
    have hy : u.blockY = s.blockY := by rw [← hu, he]; rfl
    have hfr : u.frame = s.frame := by rw [← hu, he]; rfl
    refine ⟨?_, ?_, ?_, fun g => ?_, ?_, ?_⟩
    · rw [endOfDispatch_eq, ← hu, he]; rfl
    · rw [endOfDispatch_eq, ← hu, he]; rfl
    · rw [endOfDispatch_eq, ← hu, he]; rfl
    · rw [flag_endOfDispatch, hflag]
      cases g <;> simp [raisedBy, hfr]
    · rw [diag_endOfDispatch, hdiag]
      simp only [dispatchRecords, hx, hy, hfr]
    · rw [endOfDispatch_eq, ← hu, he]
      exact ⟨rfl, rfl, rfl, rfl, rfl, rfl, rfl, rfl, rfl, rfl, rfl, rfl, rfl, rfl, rfl, rfl, rfl⟩
  · rw [endOfDispatch_eq, ← hu]; rfl
  · rw [endOfDispatch_eq, ← hu]; rfl
  · rw [endOfDispatch_eq, ← hu]; rfl

/-- The exception as an operation is the exception of the statements. -/
theorem raisePayloadOverrun_takes (op : Nibble) (s : State) :
    TakesPayloadOverrun op s (raisePayloadOverrun op (clearLatches s)) := by
  refine ⟨rfl, rfl, rfl, rfl, fun f => ?_, rfl, rfl, rfl, rfl, rfl, rfl, rfl, rfl, rfl, rfl, rfl, rfl, rfl, rfl, rfl, rfl,
    rfl, rfl, rfl, rfl⟩
  rw [flag_raisePayloadOverrun, flag_clearLatches]

/-- A form whose operands do not fit takes the exception, whatever its body. -/
theorem dispatch_overruns (f : Form) (execute : State → State) (s : State) (hf : 0 < f.length)
    (h : ¬ s.fits f.length) :
    ∃ t, dispatch f execute s = .next t ∧ TakesPayloadOverrun f.opcode.nibble s t := by
  refine ⟨_, ?_, raisePayloadOverrun_takes _ s⟩
  unfold dispatch
  rw [if_pos ⟨hf, Nat.lt_of_not_le h⟩]

/-! ### Painting -/

/-- The pixels of a block lie apart in a frame at least 8 pixels wide. -/
theorem pixelIndex_inj {s : State} (hw : 8 ≤ s.w) {r c r' c' : Nat} (hc : c < 8) (hc' : c' < 8)
    (h : s.pixelIndex r c = s.pixelIndex r' c') : r = r' ∧ c = c' := by
  simp only [State.pixelIndex] at h
  have hr : r = r' := by
    rcases Nat.lt_trichotomy r r' with hlt | heq | hgt
    · have : (r + 1) * s.w ≤ r' * s.w := Nat.mul_le_mul_right _ hlt
      have h2 : (r + 1) * s.w = r * s.w + s.w := by ring
      omega
    · exact heq
    · have : (r' + 1) * s.w ≤ r * s.w := Nat.mul_le_mul_right _ hgt
      have h2 : (r' + 1) * s.w = r' * s.w + s.w := by ring
      omega
  subst hr
  exact ⟨rfl, by omega⟩

/-- A list of writes covers the block: it names every pixel, each with its colour, and nothing else. -/
def Covers (s : State) (col : Nat → Nat → Byte) (ws : List (Nat × Byte)) : Prop :=
  (∀ r < 8, ∀ c < 8, (s.pixelIndex r c, col r c) ∈ ws)
    ∧ ∀ p ∈ ws, ∃ r < 8, ∃ c < 8, p = (s.pixelIndex r c, col r c)

/-- A dispatch whose body makes a list of writes that covers the block paints the block. -/
theorem dispatch_paints (f : Form) (ws : State → List (Nat × Byte)) (col : Nat → Nat → Byte) (s : State) (hw : 8 ≤ s.w)
    (hfits : s.fits f.length) (hcov : Covers s col (ws (clearLatches s))) :
    ∃ t, dispatch f (fun u => curWrites (ws u) u) s = .next t ∧ Advances f.opcode.nibble f.length s t
      ∧ Paints col s t := by
  obtain ⟨t, ht, hadv, hcur, hwr, hsrc⟩ := dispatch_advances f (fun u => curWrites (ws u) u) s
    (fun u => by
      have h := curWrites_eq (ws u) u
      have h2 : (curWrites (ws u) u).srcOob = u.srcOob := by rw [h]
      rw [h2]
      exact h) (.inr hfits)
  have hp : t.powerUp = s.powerUp := hadv.2.2.2.2.2.2.2.2.2.2.2.2.2.2.2.2.2.2.2.2.1
  have hread : ∀ a, t.curByte a = (curWrites (ws (clearLatches s)) (clearLatches s)).curByte a := fun a => by
    have h := curWrites_eq (ws (clearLatches s)) (clearLatches s)
    have h2 : (curWrites (ws (clearLatches s)) (clearLatches s)).powerUp = s.powerUp := by rw [h]; rfl
    simp only [State.curByte, hp, hcur, h2]
  refine ⟨t, ht, hadv, fun r hr c hc hlt => ?_, fun a ha => ?_, ?_, ?_⟩
  · rw [hread]
    refine curWrites_curByte_same _ _ _ _ hlt ⟨_, hcov.1 r hr c hc, rfl⟩ fun p hp hpa => ?_
    obtain ⟨r', -, c', hc', rfl⟩ := hcov.2 p hp
    obtain ⟨rfl, rfl⟩ := pixelIndex_inj hw hc' hc hpa
    rfl
  · rw [hread, curWrites_curByte_other]
    · rfl
    · by_cases hlt : a < s.frame
      · refine .inr fun p hp hpa => ?_
        obtain ⟨r, hr, c, hc, rfl⟩ := hcov.2 p hp
        exact ha r hr c hc (by simpa [← hpa] using hlt) hpa.symm
      · exact .inl (Nat.le_of_not_lt hlt)
  · rw [hwr, curWrites_wrOob]
    simp only [clearLatches_wrOob, clearLatches_frame, Bool.false_or, List.any_eq_true]
    constructor
    · rintro ⟨p, hp, h⟩
      obtain ⟨r, hr, c, hc, rfl⟩ := hcov.2 p hp
      exact ⟨r, hr, c, hc, of_decide_eq_true h⟩
    · rintro ⟨r, hr, c, hc, h⟩
      exact ⟨_, hcov.1 r hr c hc, decide_eq_true h⟩
  · rw [hsrc]
    have h := curWrites_eq (ws (clearLatches s)) (clearLatches s)
    show (curWrites (ws (clearLatches s)) (clearLatches s)).srcOob = false
    rw [h]
    rfl

end Sys2Proof.Machine
end

