-- ==== Sys2Proof/Laws/PerInstr.lean ====
section
/-! SUPPORT. Families of lemmas, one per instruction (LAWS.json). -/

namespace Sys2Proof.Laws.OperandCount

/-- An instruction is encoded with as many operand bytes as its form has (30_encoding.md R97). -/
def Statement (i : Instr) : Prop := (encode i).2.length = i.form.length

theorem cph : Statement .cph := rfl
theorem keep : Statement .keep := rfl
theorem cpcf (b : Byte) : Statement (.cpcf b) := rfl
theorem cpcb (b : Byte) : Statement (.cpcb b) := rfl
theorem cphn (xn yn : Nibble) : Statement (.cphn xn yn) := rfl
theorem cphw (x y : Byte) : Statement (.cphw x y) := rfl
theorem skip2 : Statement .skip2 := rfl
theorem pat2Row (d : Vector Byte 10) : Statement (.pat2Row d) := Vector.length_toList
theorem pat2Cell (d : Vector Byte 4) : Statement (.pat2Cell d) := Vector.length_toList
theorem pat2qQuad (d : Vector Byte 16) : Statement (.pat2qQuad d) := Vector.length_toList
theorem pat2qLr (d : Vector Byte 12) : Statement (.pat2qLr d) := Vector.length_toList
theorem pat2qTb (d : Vector Byte 12) : Statement (.pat2qTb d) := Vector.length_toList
theorem pat4U1x1 (d : Vector Byte 20) : Statement (.pat4U1x1 d) := Vector.length_toList
theorem pat4U2x2 (d : Vector Byte 8) : Statement (.pat4U2x2 d) := Vector.length_toList
theorem pat4U2x1 (d : Vector Byte 12) : Statement (.pat4U2x1 d) := Vector.length_toList
theorem pat4U1x2 (d : Vector Byte 12) : Statement (.pat4U1x2 d) := Vector.length_toList
theorem pat4qQuad (d : Vector Byte 32) : Statement (.pat4qQuad d) := Vector.length_toList
theorem pat4qLr (d : Vector Byte 24) : Statement (.pat4qLr d) := Vector.length_toList
theorem pat4qTb (d : Vector Byte 24) : Statement (.pat4qTb d) := Vector.length_toList
theorem raw (d : Vector Byte 64) : Statement (.raw d) := Vector.length_toList
theorem raw2 (d : Vector Byte 16) : Statement (.raw2 d) := Vector.length_toList
theorem raw4 (d : Vector Byte 4) : Statement (.raw4 d) := Vector.length_toList
theorem fill (c : Byte) : Statement (.fill c) := rfl
theorem dith (c0 c1 : Byte) : Statement (.dith c0 c1) := rfl

end Sys2Proof.Laws.OperandCount
end

