-- ==== Sys2Proof/Tests/Slice0.lean ====
section
/-! SUPPORT. Tests of the model: which terms are ill-formed, one written-out encoding of every instruction decoded, one-step
tests whose expected values are the examples of the spec (the rule's number stands in each docstring), and for every statement
with hypotheses a concrete state that meets them. -/

namespace Sys2Proof.Tests

open Sys2Proof.Machine

-- One theorem at a time: each elaborator thread reserves a large stack, and there are many theorems here.
set_option Elab.async false

/-! ### Helpers -/

/-- The state a step answers; `State.reset` where it answers none. -/
def after : Host.Outcome State Fault Refusal → State
  | .next t => t
  | _ => State.reset

/-- Whether a step answers a next state. -/
def isNext : Host.Outcome State Fault Refusal → Bool
  | .next _ => true
  | _ => false

/-- A running decoder with `len` payload bytes at the first block of a `w` by `h` frame. -/
def running (w h : BitVec 16) (len : BitVec 32) : State :=
  { State.reset with width := w, height := h, payLen := len, payRem := len, dr := len.toInt, status := 1 }

/-- A 16 by 8 frame: two blocks. -/
def small (len : BitVec 32) : State := running 16 8 len

/-- The pixels `(r, c)`, `(r, c + 1)`, ... of the block at `WC` of `s` as `o` leaves them. -/
def pixels (o : Host.Outcome State Fault Refusal) (s : State) (r c n : Nat) : List Byte :=
  (List.range n).map fun k => (after o).curByte (s.pixelIndex r (c + k))

/-- The listed pixels of the block at `WC` of `s` as `o` leaves them. -/
def spots (o : Host.Outcome State Fault Refusal) (s : State) (ps : List (Nat × Nat)) : List Byte :=
  ps.map fun p => (after o).curByte (s.pixelIndex p.1 p.2)

/-- What is left of a decoding: the instruction and how many bytes follow it. -/
def decoded (v : Nibble) (p : List Byte) : Option (Instr × Nat) :=
  match decode v p with
  | .ok (i, rest) => some (i, rest.length)
  | .error _ => none

/-! ### Operands: the examples of the rules -/

def pat2RowBytes : Vector Byte 10 := #v[0x11, 0x22, 0xFE, 0x83, 0x83, 0x83, 0x83, 0x83, 0x83, 0xFE]
def pat2CellBytes : Vector Byte 4 := #v[0x22, 0x11, 0xA5, 0x0F]
def pat2qQuadBytes : Vector Byte 16 := #v[0x01, 0x02, 0x21, 0x84, 0x03, 0x04, 0xFF, 0xFF, 0x05, 0x06, 0x00, 0x00, 0x08, 0x07, 0x01, 0x00]
def pat2qLrBytes : Vector Byte 12 := #v[0x05, 0x04, 0x0F, 0x00, 0x00, 0xF0, 0x06, 0x07, 0xFF, 0xFF, 0x00, 0x00]
def pat2qTbBytes : Vector Byte 12 := #v[0x09, 0x08, 0x01, 0x02, 0x04, 0x08, 0x0B, 0x0A, 0x80, 0x40, 0x20, 0x10]
def pat4U1x1Bytes : Vector Byte 20 := #v[0x0A, 0x0B, 0x0C, 0x0D, 0xE4, 0x1B, 0x00, 0x00, 0x00, 0x00, 0x00, 0x00, 0x00, 0x00, 0x00, 0x00,
  0x00, 0x00, 0x00, 0x00]
def pat4U2x2Bytes : Vector Byte 8 := #v[0x01, 0x02, 0x04, 0x03, 0x1B, 0x1B, 0xE4, 0xE4]
def pat4U2x1Bytes : Vector Byte 12 := #v[0x09, 0x08, 0x01, 0x02, 0x4E, 0x00, 0x00, 0x00, 0x00, 0x00, 0x00, 0x00]
def pat4U1x2Bytes : Vector Byte 12 := #v[0x09, 0x08, 0x07, 0x06, 0xE4, 0xE4, 0x00, 0x00, 0x00, 0x00, 0x00, 0x00]
def pat4qQuadBytes : Vector Byte 32 := #v[0x10, 0x20, 0x30, 0x40, 0xE4, 0xE4, 0x1B, 0x1B, 0x01, 0x02, 0x03, 0x04, 0xE4, 0x00, 0x00, 0x00,
  0x05, 0x06, 0x07, 0x08, 0xE4, 0x00, 0x00, 0x00, 0x09, 0x0A, 0x0B, 0x0C, 0x1B, 0x00, 0x00, 0x00]
def pat4qLrBytes : Vector Byte 24 := #v[0x04, 0x03, 0x02, 0x01, 0x1B, 0x00, 0x00, 0x00, 0x00, 0x00, 0x00, 0x00, 0x05, 0x06, 0x07, 0x08,
  0xE4, 0x00, 0x00, 0x00, 0x00, 0x00, 0x00, 0x00]
def pat4qTbBytes : Vector Byte 24 := #v[0x04, 0x03, 0x02, 0x01, 0x00, 0xFF, 0x00, 0x00, 0x00, 0x00, 0x00, 0x00, 0x08, 0x07, 0x06, 0x05,
  0xFF, 0x00, 0x00, 0x00, 0x00, 0x00, 0x00, 0x00]
def rawBytes : Vector Byte 64 := #v[0x00, 0x01, 0x02, 0x03, 0x04, 0x05, 0x06, 0x07, 0x08, 0x09, 0x0A, 0x0B, 0x0C, 0x0D, 0x0E, 0x0F,
  0x10, 0x11, 0x12, 0x13, 0x14, 0x15, 0x16, 0x17, 0x18, 0x19, 0x1A, 0x1B, 0x1C, 0x1D, 0x1E, 0x1F,
  0x20, 0x21, 0x22, 0x23, 0x24, 0x25, 0x26, 0x27, 0x28, 0x29, 0x2A, 0x2B, 0x2C, 0x2D, 0x2E, 0x2F,
  0x30, 0x31, 0x32, 0x33, 0x34, 0x35, 0x36, 0x37, 0x38, 0x39, 0x3A, 0x3B, 0x3C, 0x3D, 0x3E, 0x3F]
def raw2Bytes : Vector Byte 16 := #v[0x10, 0x11, 0x12, 0x13, 0x14, 0x15, 0x16, 0x17, 0x18, 0x19, 0x1A, 0x1B, 0x1C, 0x1D, 0x1E, 0x1F]
def raw4Bytes : Vector Byte 4 := #v[0x01, 0x02, 0x03, 0x04]

/-! ### WellFormed: each check refuses a term -/

theorem test_pat2Row_refuses_descending : (Instr.pat2Row #v[1, 0, 0, 0, 0, 0, 0, 0, 0, 0]).wellFormed = false := by decide
theorem test_pat2Cell_refuses_equal : (Instr.pat2Cell #v[1, 1, 0, 0]).wellFormed = false := by decide
theorem test_pat2qQuad_refuses_descending :
    (Instr.pat2qQuad #v[1, 0, 0, 0, 0, 0, 0, 0, 0, 0, 0, 0, 0, 0, 0, 0]).wellFormed = false := by decide
theorem test_pat2qLr_refuses_ascending_first :
    (Instr.pat2qLr #v[0, 1, 0, 0, 0, 0, 0, 1, 0, 0, 0, 0]).wellFormed = false := by decide
theorem test_pat2qLr_refuses_descending_second :
    (Instr.pat2qLr #v[1, 0, 0, 0, 0, 0, 1, 0, 0, 0, 0, 0]).wellFormed = false := by decide
theorem test_pat2qTb_refuses_equal_first :
    (Instr.pat2qTb #v[1, 1, 0, 0, 0, 0, 1, 0, 0, 0, 0, 0]).wellFormed = false := by decide
theorem test_pat2qTb_refuses_equal_second :
    (Instr.pat2qTb #v[1, 0, 0, 0, 0, 0, 1, 1, 0, 0, 0, 0]).wellFormed = false := by decide
theorem test_pat4U1x1_refuses_descending_first :
    (Instr.pat4U1x1 #v[1, 0, 0, 0, 0, 0, 0, 0, 0, 0, 0, 0, 0, 0, 0, 0, 0, 0, 0, 0]).wellFormed = false := by decide
theorem test_pat4U1x1_refuses_descending_second :
    (Instr.pat4U1x1 #v[0, 0, 1, 0, 0, 0, 0, 0, 0, 0, 0, 0, 0, 0, 0, 0, 0, 0, 0, 0]).wellFormed = false := by decide
theorem test_pat4U2x2_refuses_descending_first : (Instr.pat4U2x2 #v[1, 0, 1, 0, 0, 0, 0, 0]).wellFormed = false := by decide
theorem test_pat4U2x2_refuses_equal_second : (Instr.pat4U2x2 #v[0, 0, 1, 1, 0, 0, 0, 0]).wellFormed = false := by decide
theorem test_pat4U2x1_refuses_equal_first :
    (Instr.pat4U2x1 #v[1, 1, 0, 0, 0, 0, 0, 0, 0, 0, 0, 0]).wellFormed = false := by decide
theorem test_pat4U2x1_refuses_descending_second :
    (Instr.pat4U2x1 #v[1, 0, 1, 0, 0, 0, 0, 0, 0, 0, 0, 0]).wellFormed = false := by decide
theorem test_pat4U1x2_refuses_equal_first :
    (Instr.pat4U1x2 #v[1, 1, 1, 0, 0, 0, 0, 0, 0, 0, 0, 0]).wellFormed = false := by decide
theorem test_pat4U1x2_refuses_equal_second :
    (Instr.pat4U1x2 #v[1, 0, 1, 1, 0, 0, 0, 0, 0, 0, 0, 0]).wellFormed = false := by decide
theorem test_pat4qQuad_refuses_descending :
    (Instr.pat4qQuad (Vector.ofFn fun k => if k.val = 0 then 1 else 0)).wellFormed = false := by decide
theorem test_pat4qLr_refuses_equal_first : (Instr.pat4qLr (Vector.replicate 24 0)).wellFormed = false := by decide
theorem test_pat4qLr_refuses_descending_second :
    (Instr.pat4qLr (Vector.ofFn fun k => if k.val = 0 then 1 else if k.val = 12 then 1 else 0)).wellFormed = false := by
  decide
theorem test_pat4qTb_refuses_equal_first :
    (Instr.pat4qTb (Vector.ofFn fun k => if k.val = 12 then 1 else 0)).wellFormed = false := by decide
theorem test_pat4qTb_refuses_equal_second :
    (Instr.pat4qTb (Vector.ofFn fun k => if k.val = 0 then 1 else 0)).wellFormed = false := by decide

/-- Bytes compare unsigned (00_scope.md R7, 92_eei_decisions.md D20): 0x7F is below 0x80. -/
theorem test_order_is_unsigned : (Instr.pat2Cell #v[0x80, 0x7F, 0, 0]).wellFormed = true := by decide

/-! ### Decode: a written-out encoding of every instruction

The nibble is that of 30_encoding.md R94, the operand bytes are laid out as R95 says (the examples of 42_copy_ops.md to
46_raw_fill_ops.md); one more byte follows and is left over. -/

theorem test_decode_cph : decoded 0x0 [0xAA] = some (.cph, 1) := by decide
theorem test_decode_keep : decoded 0x1 [0xAA] = some (.keep, 1) := by decide
theorem test_decode_cpcf : decoded 0x2 [0x0A, 0xAA] = some (.cpcf 10, 1) := by decide
theorem test_decode_cpcb : decoded 0x3 [0xFF, 0xAA] = some (.cpcb 255, 1) := by decide
/-- R175: of 0x97, `x` is the low nibble 7 and `y` the high nibble 9. -/
theorem test_decode_cphn : decoded 0x4 [0x97, 0xAA] = some (.cphn 7 9, 1) := by decide
/-- R176: `x` is the first byte. -/
theorem test_decode_cphw : decoded 0x5 [0xFE, 0x03, 0xAA] = some (.cphw 0xFE 0x03, 1) := by decide
theorem test_decode_skip2 : decoded 0x6 [0xAA] = some (.skip2, 1) := by decide
theorem test_decode_pat2Row : decoded 0x7
    [0x11, 0x22, 0xFE, 0x83, 0x83, 0x83, 0x83, 0x83, 0x83, 0xFE, 0xAA]
    = some (.pat2Row pat2RowBytes, 1) := by decide +kernel
theorem test_decode_pat2Cell : decoded 0x7
    [0x22, 0x11, 0xA5, 0x0F, 0xAA]
    = some (.pat2Cell pat2CellBytes, 1) := by decide +kernel
theorem test_decode_pat2qQuad : decoded 0x8
    [0x01, 0x02, 0x21, 0x84, 0x03, 0x04, 0xFF, 0xFF, 0x05, 0x06, 0x00, 0x00, 0x08, 0x07, 0x01, 0x00, 0xAA]
    = some (.pat2qQuad pat2qQuadBytes, 1) := by decide +kernel
theorem test_decode_pat2qLr : decoded 0x8
    [0x05, 0x04, 0x0F, 0x00, 0x00, 0xF0, 0x06, 0x07, 0xFF, 0xFF, 0x00, 0x00, 0xAA]
    = some (.pat2qLr pat2qLrBytes, 1) := by decide +kernel
theorem test_decode_pat2qTb : decoded 0x8
    [0x09, 0x08, 0x01, 0x02, 0x04, 0x08, 0x0B, 0x0A, 0x80, 0x40, 0x20, 0x10, 0xAA]
    = some (.pat2qTb pat2qTbBytes, 1) := by decide +kernel
theorem test_decode_pat4U1x1 : decoded 0x9
    [0x0A, 0x0B, 0x0C, 0x0D, 0xE4, 0x1B, 0x00, 0x00, 0x00, 0x00, 0x00, 0x00, 0x00, 0x00, 0x00, 0x00,
      0x00, 0x00, 0x00, 0x00, 0xAA]
    = some (.pat4U1x1 pat4U1x1Bytes, 1) := by decide +kernel
theorem test_decode_pat4U2x2 : decoded 0x9
    [0x01, 0x02, 0x04, 0x03, 0x1B, 0x1B, 0xE4, 0xE4, 0xAA]
    = some (.pat4U2x2 pat4U2x2Bytes, 1) := by decide +kernel
theorem test_decode_pat4U2x1 : decoded 0x9
    [0x09, 0x08, 0x01, 0x02, 0x4E, 0x00, 0x00, 0x00, 0x00, 0x00, 0x00, 0x00, 0xAA]
    = some (.pat4U2x1 pat4U2x1Bytes, 1) := by decide +kernel
theorem test_decode_pat4U1x2 : decoded 0x9
    [0x09, 0x08, 0x07, 0x06, 0xE4, 0xE4, 0x00, 0x00, 0x00, 0x00, 0x00, 0x00, 0xAA]
    = some (.pat4U1x2 pat4U1x2Bytes, 1) := by decide +kernel
theorem test_decode_pat4qQuad : decoded 0xA
    [0x10, 0x20, 0x30, 0x40, 0xE4, 0xE4, 0x1B, 0x1B, 0x01, 0x02, 0x03, 0x04, 0xE4, 0x00, 0x00, 0x00,
      0x05, 0x06, 0x07, 0x08, 0xE4, 0x00, 0x00, 0x00, 0x09, 0x0A, 0x0B, 0x0C, 0x1B, 0x00, 0x00, 0x00, 0xAA]
    = some (.pat4qQuad pat4qQuadBytes, 1) := by decide +kernel
theorem test_decode_pat4qLr : decoded 0xA
    [0x04, 0x03, 0x02, 0x01, 0x1B, 0x00, 0x00, 0x00, 0x00, 0x00, 0x00, 0x00, 0x05, 0x06, 0x07, 0x08,
      0xE4, 0x00, 0x00, 0x00, 0x00, 0x00, 0x00, 0x00, 0xAA]
    = some (.pat4qLr pat4qLrBytes, 1) := by decide +kernel
theorem test_decode_pat4qTb : decoded 0xA
    [0x04, 0x03, 0x02, 0x01, 0x00, 0xFF, 0x00, 0x00, 0x00, 0x00, 0x00, 0x00, 0x08, 0x07, 0x06, 0x05,
      0xFF, 0x00, 0x00, 0x00, 0x00, 0x00, 0x00, 0x00, 0xAA]
    = some (.pat4qTb pat4qTbBytes, 1) := by decide +kernel
theorem test_decode_raw : decoded 0xB
    [0x00, 0x01, 0x02, 0x03, 0x04, 0x05, 0x06, 0x07, 0x08, 0x09, 0x0A, 0x0B, 0x0C, 0x0D, 0x0E, 0x0F,
      0x10, 0x11, 0x12, 0x13, 0x14, 0x15, 0x16, 0x17, 0x18, 0x19, 0x1A, 0x1B, 0x1C, 0x1D, 0x1E, 0x1F,
      0x20, 0x21, 0x22, 0x23, 0x24, 0x25, 0x26, 0x27, 0x28, 0x29, 0x2A, 0x2B, 0x2C, 0x2D, 0x2E, 0x2F,
      0x30, 0x31, 0x32, 0x33, 0x34, 0x35, 0x36, 0x37, 0x38, 0x39, 0x3A, 0x3B, 0x3C, 0x3D, 0x3E, 0x3F, 0xAA]
    = some (.raw rawBytes, 1) := by decide +kernel
theorem test_decode_raw2 : decoded 0xC
    [0x10, 0x11, 0x12, 0x13, 0x14, 0x15, 0x16, 0x17, 0x18, 0x19, 0x1A, 0x1B, 0x1C, 0x1D, 0x1E, 0x1F, 0xAA]
    = some (.raw2 raw2Bytes, 1) := by decide +kernel
theorem test_decode_raw4 : decoded 0xD
    [0x01, 0x02, 0x03, 0x04, 0xAA]
    = some (.raw4 raw4Bytes, 1) := by decide +kernel
theorem test_decode_fill : decoded 0xE [0x05, 0xAA] = some (.fill 5, 1) := by decide
theorem test_decode_dith : decoded 0xF [0x07, 0x09, 0xAA] = some (.dith 7 9, 1) := by decide

/-- A payload too short for the selectors, and one too short for the operands, are refused (20_memory.md R69). -/
theorem test_decode_refuses_short_payload :
    decoded 0x7 [0x00] = none ∧ decoded 0x7 [0x22, 0x11, 0xA5] = none ∧ decoded 0x8 [5, 4, 0, 0, 0, 0, 6] = none
      ∧ decoded 0x9 [0, 1, 0] = none ∧ decoded 0xE [] = none := by decide

/-- The words of the opcode table: the nibble in bits [3:0] of the first byte, the operand bytes after it. -/
theorem test_table_words :
    decodeTableWord 16 0x050E = some (.fill 5) ∧ decodeTableWord 16 0x9704 = some (.cphn 7 9)
      ∧ decodeTableWord 40 0x0FA5112207 = some (.pat2Cell pat2CellBytes) ∧ decodeTableWord 8 0x06 = some .skip2 := by
  decide +kernel

/-- 30_encoding.md R91: map byte 0xE1 is 0x1 on the left and 0xE on the right. -/
theorem test_map_byte : packMapByte 0x1 0xE = 0xE1 ∧ lowNibble 0xE1 = 0x1 ∧ highNibble 0xE1 = 0xE := by decide

/-- 30_encoding.md R98: the code 10 is (11, 1), the code 255 is (11, 14). -/
theorem test_far_offset : farOffset 10 = (11, 1) ∧ farOffset 255 = (11, 14) ∧ farOffset 56 = (-14, 8) := by decide

/-! ### One step of each instruction: the examples of the rules -/

/-- R171: at `WC = 8` of a 16-wide frame `HIST[8..15]`, ..., `HIST[120..127]` are copied; `WC` becomes 16. -/
theorem test_cph :
    let s := { small 0 with wc := 8, blockX := 1, hist := (List.range 128).map fun a => (a, BitVec.ofNat 8 a) }
    pixels (exec .cph s) s 0 0 8 = [8, 9, 10, 11, 12, 13, 14, 15]
      ∧ pixels (exec .cph s) s 7 0 8 = [120, 121, 122, 123, 124, 125, 126, 127] ∧ (after (exec .cph s)).wc = 16 := by
  decide +kernel

/-- R172: `WC` goes from 0 to 8, nothing else moves. -/
theorem test_keep :
    (after (exec .keep (small 1))).wc = 8 ∧ (after (exec .keep (small 1))).dp = 0
      ∧ (after (exec .keep (small 1))).cur = [] := by decide +kernel

/-- R173: for `b = 10` pixel `(r, c)` is read from `CUR[WC + 11 + W + r*W + c]`. -/
theorem test_cpcf :
    let s := { running 64 16 1 with cur := (List.range 128).map fun a => (64 + a, BitVec.ofNat 8 a) }
    pixels (exec (.cpcf 10) s) s 0 0 4 = [11, 12, 13, 14] ∧ pixels (exec (.cpcf 10) s) s 1 0 2 = [75, 76]
      ∧ (after (exec (.cpcf 10) s)).dp = 1 := by decide +kernel

/-- R174: for `b = 10`, `W = 64`, `WC = 1032` pixel `(0, 0)` is read from `CUR[957]`. -/
theorem test_cpcb :
    let s := { running 64 64 1 with wc := 1032, blockX := 1, blockY := 2, cur := [(957, 0x5A), (958, 0x5B), (1021, 0x5C)] }
    spots (exec (.cpcb 10) s) s [(0, 0), (0, 1), (1, 0)] = [0x5A, 0x5B, 0x5C] := by decide +kernel

/-- R174 with R177 at `W = 16`: the code 0 copies the block to the left, and a negative source leaves its byte alone. -/
theorem test_cpcb_source_outside :
    let s := { small 1 with cur := (List.range 128).map fun a => (a, BitVec.ofNat 8 a) }
    spots (exec (.cpcb 0) s) s [(0, 0), (0, 7), (1, 0)] = [0, 7, 8] ∧ (after (exec (.cpcb 0) s)).flag .srcOob = true
      ∧ (after (exec (.cpcb 0) s)).diag = [⟨.srcOob, 3, 0, 0, 8⟩] := by decide +kernel

/-- R175: `b = 0x97` is `x = -1`, `y = 1`, so the displacement is `W - 1`. -/
theorem test_cphn :
    let s := { small 1 with hist := (List.range 128).map fun a => (a, BitVec.ofNat 8 a) }
    pixels (exec (.cphn 7 9) s) s 0 0 3 = [15, 16, 17] := by decide +kernel

/-- R176: `FE 03` is `x = -2`, `y = 3`, so the displacement is `3*W - 2`. -/
theorem test_cphw :
    let s := { small 2 with hist := (List.range 128).map fun a => (a, BitVec.ofNat 8 a) }
    pixels (exec (.cphw 0xFE 0x03) s) s 0 0 3 = [46, 47, 48] ∧ (after (exec (.cphw 0xFE 0x03) s)).dp = 2 := by
  decide +kernel

/-- R190: at block (0, 3) of a 32 by 16 frame `WC` goes from 24 to 264. -/
theorem test_skip2 :
    (after (exec .skip2 { running 32 16 0 with wc := 24, blockX := 3 })).wc = 264 := by decide +kernel

/-- R190 and R128: in the last block but one the frame ends early at `WC = 512` (program P3 of 95_test_vectors.md). -/
theorem test_skip2_early :
    let t := after (exec .skip2 { running 32 16 0 with wc := 272, blockX := 2, blockY := 1 })
    t.wc = 512 ∧ t.status = 0x00A ∧ t.blockX = 2 := by decide +kernel

/-- R200. -/
theorem test_pat2Row :
    spots (exec (.pat2Row pat2RowBytes) (small 10)) (small 10) [(0, 0), (0, 1), (1, 0), (1, 2), (1, 7)]
      = [0x11, 0x22, 0x22, 0x11, 0x22] := by decide +kernel

/-- R201. -/
theorem test_pat2Cell :
    spots (exec (.pat2Cell pat2CellBytes) (small 4)) (small 4) [(0, 0), (1, 1), (0, 2), (2, 0), (4, 0), (6, 0)]
      = [0x11, 0x11, 0x22, 0x22, 0x11, 0x22] := by decide +kernel

/-- R203: the top-left diagonal; then each quadrant by its own colours, bottom-left before top-right. -/
theorem test_pat2qQuad :
    spots (exec (.pat2qQuad pat2qQuadBytes) (small 16)) (small 16) [(0, 0), (1, 1), (0, 1), (4, 0), (0, 4), (4, 4), (4, 5)]
      = [2, 2, 1, 4, 5, 7, 8] := by decide +kernel

/-- R204. -/
theorem test_pat2qLr :
    spots (exec (.pat2qLr pat2qLrBytes) (small 12)) (small 12) [(0, 0), (1, 0), (6, 0), (7, 0), (0, 4), (4, 4)]
      = [4, 5, 5, 4, 7, 6] := by decide +kernel

/-- R205. -/
theorem test_pat2qTb :
    spots (exec (.pat2qTb pat2qTbBytes) (small 12)) (small 12) [(0, 0), (0, 1), (1, 1), (4, 7), (7, 4), (4, 0)]
      = [8, 9, 8, 0x0A, 0x0A, 0x0B] := by decide +kernel

/-- R220. -/
theorem test_pat4U1x1 :
    pixels (exec (.pat4U1x1 pat4U1x1Bytes) (small 20)) (small 20) 0 0 8
      = [0x0A, 0x0B, 0x0C, 0x0D, 0x0D, 0x0C, 0x0B, 0x0A] := by decide +kernel

/-- R221. -/
theorem test_pat4U2x2 :
    spots (exec (.pat4U2x2 pat4U2x2Bytes) (small 8)) (small 8) [(0, 0), (1, 1), (0, 2), (4, 0), (7, 7)]
      = [3, 3, 4, 1, 3] := by decide +kernel

/-- R222. -/
theorem test_pat4U2x1 :
    pixels (exec (.pat4U2x1 pat4U2x1Bytes) (small 12)) (small 12) 0 0 8 = [1, 1, 2, 2, 9, 9, 8, 8] := by decide +kernel

/-- R223: rows 0 and 1 are the same. -/
theorem test_pat4U1x2 :
    let o := exec (.pat4U1x2 pat4U1x2Bytes) (small 12)
    pixels o (small 12) 0 0 8 = [9, 8, 7, 6, 9, 8, 7, 6] ∧ pixels o (small 12) 1 0 8 = [9, 8, 7, 6, 9, 8, 7, 6] := by
  decide +kernel

/-- R225: the top-left quadrant; then bottom-left before top-right. -/
theorem test_pat4qQuad :
    let o := exec (.pat4qQuad pat4qQuadBytes) (small 32)
    pixels o (small 32) 0 0 4 = [0x10, 0x20, 0x30, 0x40] ∧ pixels o (small 32) 2 0 4 = [0x40, 0x30, 0x20, 0x10]
      ∧ spots o (small 32) [(4, 1), (0, 5), (4, 4)] = [2, 6, 0x0C] := by decide +kernel

/-- R226. -/
theorem test_pat4qLr :
    pixels (exec (.pat4qLr pat4qLrBytes) (small 24)) (small 24) 0 0 8 = [1, 2, 3, 4, 5, 6, 7, 8] := by decide +kernel

/-- R227. -/
theorem test_pat4qTb :
    let o := exec (.pat4qTb pat4qTbBytes) (small 24)
    pixels o (small 24) 0 0 8 = [4, 4, 4, 4, 1, 1, 1, 1] ∧ pixels o (small 24) 4 0 8 = [5, 5, 5, 5, 8, 8, 8, 8] := by
  decide +kernel

/-- R240. -/
theorem test_raw :
    spots (exec (.raw rawBytes) (small 64)) (small 64) [(0, 1), (1, 0), (7, 7)] = [1, 8, 0x3F] := by decide +kernel

/-- R241. -/
theorem test_raw2 :
    spots (exec (.raw2 raw2Bytes) (small 16)) (small 16) [(0, 0), (1, 1), (0, 2), (2, 0), (7, 7)]
      = [0x10, 0x10, 0x11, 0x14, 0x1F] := by decide +kernel

/-- R242. -/
theorem test_raw4 :
    spots (exec (.raw4 raw4Bytes) (small 4)) (small 4) [(0, 0), (0, 4), (4, 0), (4, 4), (3, 3), (7, 7)]
      = [1, 2, 3, 4, 1, 4] := by decide +kernel

/-- R243: at `WC = 8` of a 16 by 8 frame `CUR[8..15]`, ..., `CUR[120..127]` take the colour, `CUR[7]` and `CUR[16]` none. -/
theorem test_fill :
    let s := { small 1 with wc := 8, blockX := 1, cur := [(7, 0xEE), (16, 0xEE)] }
    let t := after (exec (.fill 5) s)
    [7, 8, 15, 16, 120, 127].map t.curByte = [0xEE, 5, 5, 0xEE, 5, 5] ∧ t.dp = 1 ∧ t.dr = 0 := by decide +kernel

/-- Program P5 of 95_test_vectors.md, block (1, 0): at `WC = 248` of 256 bytes only row 0 is in range; both records. -/
theorem test_fill_straddles :
    let s := { running 16 16 3 with wc := 248, blockY := 1, dp := 1, dr := 2 }
    let t := after (exec (.fill 2) s)
    t.cur.map Prod.fst = [248, 249, 250, 251, 252, 253, 254, 255] ∧ t.status = 0x0C1
      ∧ t.diag = [⟨.wrOob, 14, 0, 1, 256⟩, ⟨.wcOob, 14, 0, 1, 256⟩] := by decide +kernel

/-- R244. -/
theorem test_dith :
    let o := exec (.dith 7 9) (small 2)
    pixels o (small 2) 0 0 8 = [7, 9, 7, 9, 7, 9, 7, 9] ∧ pixels o (small 2) 1 0 8 = [9, 7, 9, 7, 9, 7, 9, 7] := by
  decide +kernel

/-! ### The exception, the walker, the host -/

/-- Program P6 of 95_test_vectors.md, run 1, block (0, 1): `PAT2.CELL` with three of its four bytes. -/
def overrunState : State :=
  { running 32 8 4 with wc := 8, blockX := 1, dp := 1, dr := 3, map := [(0, 0x7E), (1, 0xEE)],
                        pay := [(0, 0x07), (1, 0x22), (2, 0x11), (3, 0xA5)] }

theorem test_overrun :
    let t := after (step overrunState)
    t.status = 0x024 ∧ t.faultOp = 7 ∧ t.faultX = 1 ∧ t.faultY = 0 ∧ t.faultDp = 1 ∧ t.wc = 8 ∧ t.dp = 1 ∧ t.dr = 3
      ∧ t.cur = [] ∧ t.irq = true := by decide +kernel

/-- Program P7 of 95_test_vectors.md: a `START` with `WIDTH = 24` is refused. -/
theorem test_start_refused :
    let t := after (step { State.reset with width := 24, height := 8, wc := 256, host := [.writeReg 4 1] })
    t.status = 0x014 ∧ t.wc = 256 ∧ t.irq = true := by decide +kernel

/-- 10_state.md R39: an accepted `START`. -/
theorem test_start_accepted :
    let t := after (step { State.reset with width := 16, height := 8, payRem := 0xFFFFFFFF, wc := 256, dp := 7,
                                            status := 0x382, host := [.writeReg 4 1] })
    t.status = 0x001 ∧ t.wc = 0 ∧ t.dp = 0 ∧ t.dr = -1 := by decide +kernel

/-- A placed instruction is fetched and run by the very next step, from reset and in an odd block. -/
theorem test_withFetchWord :
    (after (step (State.reset.withFetchWord 16 0x050E))).curByte 0 = 5
      ∧ (after (step (State.withFetchWord { small 0 with wc := 8, blockX := 1 } 16 0x050E))).curByte 8 = 5 := by
  decide +kernel

/-- The source's example (95_test_vectors.md S1): map byte 0xE1, payload 05, a 16 by 8 frame: the right block is 5 and the
frame is done at `WC = 128`. -/
theorem test_source_example :
    let s := { State.reset with width := 16, height := 8, payLen := 1, payRem := 1, map := [(0, 0xE1)], pay := [(0, 5)],
                                host := [.writeReg 4 1] }
    let t := after (Host.Core.run Sys2Proof.core 3 s)
    t.status = 0x002 ∧ t.wc = 128 ∧ t.dr = 0 ∧ t.curByte 8 = 5 ∧ t.curByte 127 = 5 ∧ t.cur.length = 64 := by
  decide +kernel

/-! ### Witnesses: for every statement with hypotheses a concrete state and operands that meet them, at the boundary values

`small n` is a running decoder at block (0, 0) of a 16 by 8 frame with `DP = 0` and `PAY_LEN = n`: a form of `n` bytes just
fits it, and in `small (n - 1)` it just does not. -/

theorem witness_EncodeThenDecode : (Instr.pat2Cell pat2CellBytes).wellFormed = true ∧ Instr.skip2.wellFormed = true := by
  decide

theorem witness_DecodeThenEncode : decode 0x7 [0x22, 0x11, 0xA5, 0x0F, 0x08] = .ok (.pat2Cell pat2CellBytes, [0x08]) := by
  decide +kernel

/-- Payloads of exactly the lengths the clauses turn on, with both outcomes of each comparison. -/
theorem witness_FormSelection :
    formOf .pat2 [1, 1] = some .pat2Row ∧ formOf .pat2 [1, 0] = some .pat2Cell ∧ formOf .pat2 [1] = none
      ∧ formOf .pat2q [1, 1] = some .pat2qQuad ∧ formOf .pat2q [1, 0, 0, 0, 0, 0, 1, 1] = some .pat2qLr
      ∧ formOf .pat2q [1, 0, 0, 0, 0, 0, 1, 0] = some .pat2qTb ∧ formOf .pat2q [1, 0, 0, 0, 0, 0, 1] = none
      ∧ formOf .pat4 [1, 1, 1, 1] = some .pat4U1x1 ∧ formOf .pat4 [1, 1, 1, 0] = some .pat4U2x2
      ∧ formOf .pat4 [1, 0, 1, 1] = some .pat4U2x1 ∧ formOf .pat4 [1, 0, 1, 0] = some .pat4U1x2
      ∧ formOf .pat4 [1, 1, 1] = none ∧ formOf .pat4q [1, 1] = some .pat4qQuad
      ∧ formOf .pat4q [1, 0, 0, 0, 0, 0, 0, 0, 0, 0, 0, 0, 1, 1] = some .pat4qLr
      ∧ formOf .pat4q [1, 0, 0, 0, 0, 0, 0, 0, 0, 0, 0, 0, 1, 0] = some .pat4qTb
      ∧ formOf .pat4q [1, 0, 0, 0, 0, 0, 0, 0, 0, 0, 0, 0, 1] = none := by decide

theorem witness_FarOffset :
    (55 : Byte).toNat < 56 ∧ farOffset 55 = (14, 7) ∧ ¬ (56 : Byte).toNat < 56 ∧ farOffset 56 = (-14, 8) := by decide

theorem witness_FarCopyBlocksAreDisjoint : (running 32 8 0).w % 16 = 0 ∧ 32 ≤ (running 32 8 0).w := by decide

theorem witness_UnitRun : 4 * 2 ≤ 8 ∧ ((runUnits 8 5 4 2 1 1 (colours2 1 2) (0x5 : BitVec 4)).map Prod.fst).Nodup := by
  decide

/-- The last index of the frame and the first beyond it. -/
theorem witness_CheckedWrite : 127 < (small 0).frame ∧ (small 0).frame ≤ 128 := by decide

theorem witness_CheckedReads :
    ((0 : Int) ≤ 127 ∧ (127 : Int) < (small 0).frame) ∧ ((-1 : Int) < 0 ∧ ((small 0).frame : Int) ≤ 128) := by decide

theorem witness_Cph : 8 ≤ (small 0).w ∧ 8 ≤ (running 8 8 0).w := by decide

theorem witness_Cpcf : 8 ≤ (small 1).w ∧ (small 1).fits 1 ∧ ¬ (small 0).fits 1 := by
  unfold State.fits; decide

theorem witness_Cpcb : 8 ≤ (small 1).w ∧ (small 1).fits 1 ∧ ¬ (small 0).fits 1 := by
  unfold State.fits; decide

theorem witness_Cphn : 8 ≤ (small 1).w ∧ (small 1).fits 1 ∧ ¬ (small 0).fits 1 := by
  unfold State.fits; decide

theorem witness_Cphw : 8 ≤ (small 2).w ∧ (small 2).fits 2 ∧ ¬ (small 1).fits 2 := by
  unfold State.fits; decide

/-- The four places of `SKIP2` in a row and in the frame: the net effects of R190. -/
theorem witness_Skip2 :
    let at_ := fun x y => { running 64 16 0 with blockX := x, blockY := y }
    2 ≤ (at_ 0 0).nbx ∧ 7 < (at_ 0 0).nbx ∧ 1 < (at_ 0 0).nby
      ∧ (after (exec .skip2 (at_ 5 1))).wc = 16 ∧ (after (exec .skip2 (at_ 5 1))).flag .busy = true
      ∧ (after (exec .skip2 (at_ 6 0))).wc = 16 + 7 * 64 ∧ (after (exec .skip2 (at_ 6 0))).flag .busy = true
      ∧ (after (exec .skip2 (at_ 6 1))).wc = 16 + 7 * 64 ∧ (after (exec .skip2 (at_ 6 1))).flag .early = true
      ∧ (after (exec .skip2 (at_ 7 0))).wc = 16 + 7 * 64 ∧ (after (exec .skip2 (at_ 7 0))).flag .busy = true
      ∧ (after (exec .skip2 (at_ 7 1))).wc = 8 + 7 * 64 ∧ (after (exec .skip2 (at_ 7 1))).flag .early = true := by
  decide +kernel

theorem witness_Pat2Row : (pat2RowBytes[0] ≤ pat2RowBytes[1])
    ∧ 8 ≤ (small 10).w ∧ (small 10).fits 10 ∧ ¬ (small 9).fits 10 := by unfold State.fits; decide

theorem witness_Pat2Cell : (pat2CellBytes[1] < pat2CellBytes[0])
    ∧ 8 ≤ (small 4).w ∧ (small 4).fits 4 ∧ ¬ (small 3).fits 4 := by unfold State.fits; decide

theorem witness_Pat2qQuad : (pat2qQuadBytes[0] ≤ pat2qQuadBytes[1])
    ∧ 8 ≤ (small 16).w ∧ (small 16).fits 16 ∧ ¬ (small 15).fits 16 := by unfold State.fits; decide

theorem witness_Pat2qLr : (pat2qLrBytes[1] < pat2qLrBytes[0] ∧ pat2qLrBytes[6] ≤ pat2qLrBytes[7])
    ∧ 8 ≤ (small 12).w ∧ (small 12).fits 12 ∧ ¬ (small 11).fits 12 := by unfold State.fits; decide

theorem witness_Pat2qTb : (pat2qTbBytes[1] < pat2qTbBytes[0] ∧ pat2qTbBytes[7] < pat2qTbBytes[6])
    ∧ 8 ≤ (small 12).w ∧ (small 12).fits 12 ∧ ¬ (small 11).fits 12 := by unfold State.fits; decide

theorem witness_Pat4U1x1 : (pat4U1x1Bytes[0] ≤ pat4U1x1Bytes[1] ∧ pat4U1x1Bytes[2] ≤ pat4U1x1Bytes[3])
    ∧ 8 ≤ (small 20).w ∧ (small 20).fits 20 ∧ ¬ (small 19).fits 20 := by unfold State.fits; decide

theorem witness_Pat4U2x2 : (pat4U2x2Bytes[0] ≤ pat4U2x2Bytes[1] ∧ pat4U2x2Bytes[3] < pat4U2x2Bytes[2])
    ∧ 8 ≤ (small 8).w ∧ (small 8).fits 8 ∧ ¬ (small 7).fits 8 := by unfold State.fits; decide

theorem witness_Pat4U2x1 : (pat4U2x1Bytes[1] < pat4U2x1Bytes[0] ∧ pat4U2x1Bytes[2] ≤ pat4U2x1Bytes[3])
    ∧ 8 ≤ (small 12).w ∧ (small 12).fits 12 ∧ ¬ (small 11).fits 12 := by unfold State.fits; decide

theorem witness_Pat4U1x2 : (pat4U1x2Bytes[1] < pat4U1x2Bytes[0] ∧ pat4U1x2Bytes[3] < pat4U1x2Bytes[2])
    ∧ 8 ≤ (small 12).w ∧ (small 12).fits 12 ∧ ¬ (small 11).fits 12 := by unfold State.fits; decide

theorem witness_Pat4qQuad : (pat4qQuadBytes[0] ≤ pat4qQuadBytes[1])
    ∧ 8 ≤ (small 32).w ∧ (small 32).fits 32 ∧ ¬ (small 31).fits 32 := by unfold State.fits; decide

theorem witness_Pat4qLr : (pat4qLrBytes[1] < pat4qLrBytes[0] ∧ pat4qLrBytes[12] ≤ pat4qLrBytes[13])
    ∧ 8 ≤ (small 24).w ∧ (small 24).fits 24 ∧ ¬ (small 23).fits 24 := by unfold State.fits; decide

theorem witness_Pat4qTb : (pat4qTbBytes[1] < pat4qTbBytes[0] ∧ pat4qTbBytes[13] < pat4qTbBytes[12])
    ∧ 8 ≤ (small 24).w ∧ (small 24).fits 24 ∧ ¬ (small 23).fits 24 := by unfold State.fits; decide

theorem witness_Raw : 8 ≤ (small 64).w ∧ (small 64).fits 64 ∧ ¬ (small 63).fits 64 := by
  unfold State.fits; decide

theorem witness_Raw2 : 8 ≤ (small 16).w ∧ (small 16).fits 16 ∧ ¬ (small 15).fits 16 := by
  unfold State.fits; decide

theorem witness_Raw4 : 8 ≤ (small 4).w ∧ (small 4).fits 4 ∧ ¬ (small 3).fits 4 := by
  unfold State.fits; decide

theorem witness_Fill : 8 ≤ (small 1).w ∧ (small 1).fits 1 ∧ ¬ (small 0).fits 1 := by
  unfold State.fits; decide

theorem witness_Dith : 8 ≤ (small 2).w ∧ (small 2).fits 2 ∧ ¬ (small 1).fits 2 := by
  unfold State.fits; decide

/-- A running decoder with a payload byte and `FILL`, `KEEP` in its map. -/
def twoBlocks : State := { small 1 with map := [(0, 0x1E)], pay := [(0, 0x05)] }

theorem witness_StepRuns :
    twoBlocks.host = [] ∧ twoBlocks.flag .busy = true
      ∧ decode (fetchOpcode twoBlocks) (payloadWindow twoBlocks) = .ok (.fill 5, []) := by decide +kernel

theorem witness_StepRunsAfterPass :
    let s := { twoBlocks with host := [.pass, .reset] }
    s.host = .pass :: [.reset] ∧ s.flag .busy = true
      ∧ decode (fetchOpcode s) (payloadWindow s) = .ok (.fill 5, []) := by decide +kernel

/-- An even and an odd block column, and the last byte of the payload. -/
theorem witness_Fetch :
    twoBlocks.blockX % 2 = 0 ∧ { twoBlocks with blockX := 1 }.blockX % 2 = 1
      ∧ fetchOpcode twoBlocks = 0xE ∧ fetchOpcode { twoBlocks with blockX := 1 } = 0x1
      ∧ (small 64).dp + 63 < (small 64).payLen.toNat ∧ (63 : Nat) < 64 := by decide +kernel

theorem witness_Walker :
    let at_ := fun x y => { running 32 16 0 with blockX := x, blockY := y }
    (at_ 2 0).blockX + 1 ≠ (at_ 2 0).nbx
      ∧ ((at_ 3 0).blockX + 1 = (at_ 3 0).nbx ∧ (at_ 3 0).blockY + 1 ≠ (at_ 3 0).nby)
      ∧ ((at_ 3 1).blockX + 1 = (at_ 3 1).nbx ∧ (at_ 3 1).blockY + 1 = (at_ 3 1).nby) := by decide

/-- Operands cut off and operands just there, in running decoders without a host turn. -/
theorem witness_Overrun :
    (overrunState.host = [] ∧ overrunState.flag .busy = true
      ∧ OperandsCutOff overrunState (Opcode.ofNibble (fetchOpcode overrunState)))
    ∧ (twoBlocks.host = [] ∧ twoBlocks.flag .busy = true
      ∧ ¬ OperandsCutOff twoBlocks (Opcode.ofNibble (fetchOpcode twoBlocks))) := by
  have h : fetchOpcode overrunState = 0x7 ∧ fetchOpcode twoBlocks = 0xE := by decide +kernel
  rw [h.1, h.2]
  refine ⟨⟨rfl, by decide, ?_⟩, rfl, by decide, ?_⟩
  · show ¬ overrunState.fits 2 ∨ _ ∨ _
    unfold State.fits
    decide +kernel
  · show ¬ ¬ twoBlocks.fits 1
    unfold State.fits
    decide

/-- A 0 written, a 1 while busy, a 1 while idle with a legal and with an illegal configuration. -/
theorem witness_Start :
    let idle := { small 0 with status := 0 }
    { small 0 with host := [.writeReg 4 0] }.host = [.writeReg 4 0] ∧ (0 : BitVec 64).getLsbD 0 = false
      ∧ (small 0).flag .busy = true ∧ idle.flag .busy = false ∧ (1 : BitVec 64).getLsbD 0 = true
      ∧ (idle.w ≠ 0 ∧ idle.w % 16 = 0 ∧ idle.h ≠ 0 ∧ idle.h % 8 = 0)
      ∧ ¬ (State.reset.w ≠ 0) ∧ State.reset.flag .busy = false := by decide

theorem witness_ConfigurationWrites :
    (State.reset.flag .busy = false ∧ (small 0).flag .busy = true)
      ∧ (after (step { State.reset with host := [.writeReg 0 0x10010] })).width = 16
      ∧ (after (step { small 0 with host := [.writeReg 0 32] })).width = 16
      ∧ (after (step { State.reset with host := [.writeReg 5 0x3FF] })).status = 0 := by decide +kernel

theorem witness_RegisterReads :
    let s := { State.reset with host := [.readReg 10], dr := -1, wc := 2 ^ 64 - 1, blockX := 2 ^ 16 - 1, dp := 2 ^ 32 - 1 }
    s.host = .readReg 10 :: [] ∧ s.flag .busy = false ∧ s.wc < 2 ^ 64 ∧ s.blockX < 2 ^ 16 ∧ s.dp < 2 ^ 32
      ∧ (-2 ^ 63 ≤ s.dr ∧ s.dr < 2 ^ 63) ∧ (after (step s)).readData.toInt = -1 := by decide +kernel

theorem witness_BusyReads :
    let s := { small 0 with host := [.readReg 5] }
    s.host = .readReg 5 :: [] ∧ s.flag .busy = true ∧ isNext (step s) = true := by decide +kernel

/-- The last index of a space and the first beyond it, idle and busy. -/
theorem witness_HostMemory :
    (2 ^ 32 - 1 < 2 ^ 32 ∧ 2 ^ 32 ≤ 2 ^ 32)
      ∧ isNext (step { State.reset with host := [.writeMem .pay (2 ^ 32 - 1) 7] }) = true
      ∧ isNext (step { State.reset with host := [.writeMem .pay (2 ^ 32) 7] }) = false
      ∧ isNext (step { small 0 with host := [.writeMem .pay 0 7] }) = false
      ∧ isNext (step { small 0 with host := [.readMem .cur 0] }) = false
      ∧ isNext (step { small 0 with host := [.readMem .hist 0] }) = true := by decide +kernel

theorem witness_HardwareReset : { overrunState with host := [.reset] }.host = .reset :: [] := rfl

theorem witness_Irq : (small 0).status = (running 32 8 7).status := rfl

theorem witness_Idle : State.reset.host = [] ∧ State.reset.flag .busy = false := by decide

/-- A running state in which the three invariants hold and a step answers a next state. -/
theorem witness_Invariants :
    MemoriesCanonical twoBlocks ∧ RegistersSound twoBlocks ∧ StatusConsistent twoBlocks
      ∧ isNext (step twoBlocks) = true := by
  refine ⟨by unfold MemoriesCanonical; decide, ⟨by unfold RegistersInWidth; decide, fun _ => ?_⟩,
    by unfold StatusConsistent; decide, by decide +kernel⟩
  unfold RunInBounds
  decide

/-- A `START` from reset, a run in progress, and a run that is over. -/
theorem witness_OnceStarted :
    StatusConsistent { State.reset with host := [.writeReg 4 1] } ∧ OneOfBusyDoneFail twoBlocks
      ∧ isNext (step { State.reset with host := [.writeReg 4 1] }) = true ∧ (1 : BitVec 64).getLsbD 0 = true
      ∧ OneOfBusyDoneFail (after (step { State.reset with host := [.writeReg 4 1] })) := by
  unfold StatusConsistent OneOfBusyDoneFail
  decide +kernel

theorem witness_FlagsStaySet :
    let s := { twoBlocks with status := 0x201 }
    s.host = [] ∧ Flag.remNeg ≠ .busy ∧ s.flag .remNeg = true ∧ isNext (step s) = true := by decide +kernel

theorem witness_FaultRecord :
    (overrunState.host = [] ∧ isNext (step overrunState) = true ∧ (after (step overrunState)).faultOp = 7)
      ∧ (twoBlocks.host = [] ∧ isNext (step twoBlocks) = true) := by decide +kernel

theorem witness_DecoderStep : twoBlocks.host = [] ∧ State.reset.host = [] := by decide

theorem witness_StartedFrame :
    let s := { small 1 with status := 0, host := [.writeReg 4 1] }
    s.host = [.writeReg 4 1] ∧ (1 : BitVec 64).getLsbD 0 = true ∧ s.flag .busy = false ∧ s.legal = true := by decide

/-- The first and the last block of a frame, on the grid. -/
theorem witness_CleanRun :
    let s := { twoBlocks with blockX := 1, wc := 8 }
    (twoBlocks.host = [] ∧ twoBlocks.flag .busy = true ∧ RunInBounds twoBlocks ∧ OnTheGrid twoBlocks
      ∧ fetchOpcode twoBlocks ≠ 0x6)
    ∧ (s.host = [] ∧ s.flag .busy = true ∧ RunInBounds s ∧ OnTheGrid s ∧ fetchOpcode s ≠ 0x6) := by
  unfold RunInBounds OnTheGrid
  decide +kernel

theorem witness_Diagnostics :
    let s := { twoBlocks with status := 0x3C1, dr := -5, diag := [⟨.wcOob, 0, 0, 0, 0⟩] }
    twoBlocks.host = [] ∧ twoBlocks.blind = s.blind ∧ twoBlocks ≠ s := by decide +kernel
end Sys2Proof.Tests
end

section
/-! PROOF. What one instruction, one block and one step of the decoder can come to, said once: the run goes on, it ends
early (40_walker_dispatch.md R128), it ends normally (R127), or the payload overruns (60_exceptions.md R261). -/

namespace Sys2Proof.Machine

/-! ### The bodies of the dispatches -/

/-- A body that changes `CUR` and the two latches only. -/
def TouchesPixelsOnly (execute : State → State) : Prop :=
  ∀ u, execute u = { u with cur := (execute u).cur, wrOob := (execute u).wrOob, srcOob := (execute u).srcOob }

theorem touchesPixelsOnly_id : TouchesPixelsOnly fun u => u := fun _ => rfl

theorem touchesPixelsOnly_blockCopy (src : State → Int → Option Byte) (off : State → Int) :
    TouchesPixelsOnly fun u => blockCopy src (off u) u := fun u => blockCopy_eq src (off u) u

theorem touchesPixelsOnly_curWrites (ws : State → List (Nat × Byte)) :
    TouchesPixelsOnly fun u => curWrites (ws u) u := fun u => by
  have hws := curWrites_eq (ws u) u
  have hsrc : (curWrites (ws u) u).srcOob = u.srcOob := by rw [hws]
  rw [hsrc]
  exact hws

/-- Every instruction but `SKIP2` is the dispatch of its form, around a body that changes `CUR` and the latches only. -/
theorem exec_eq_dispatch (i : Instr) (hi : i ≠ .skip2) :
    ∃ execute, TouchesPixelsOnly execute ∧ ∀ s, exec i s = dispatch i.form execute s := by
  cases i with
  | skip2 => exact absurd rfl hi
  | keep => exact ⟨_, touchesPixelsOnly_id, fun _ => rfl⟩
  | cph | cpcf | cpcb | cphn | cphw =>
    simp only [exec, execCph, execCpcf, execCpcb, execCphn, execCphw, Instr.form]
    exact ⟨_, touchesPixelsOnly_blockCopy _ _, fun _ => rfl⟩
  | pat2Row | pat2Cell | pat2qQuad | pat2qLr | pat2qTb | pat4U1x1 | pat4U2x2 | pat4U2x1 | pat4U1x2 | pat4qQuad
  | pat4qLr | pat4qTb | raw | raw2 | raw4 | fill | dith =>
    simp only [exec, execPat2Row, execPat2Cell, execPat2qQuad, execPat2qLr, execPat2qTb, execPat4U1x1, execPat4U2x2,
      execPat4U2x1, execPat4U1x2, execPat4qQuad, execPat4qLr, execPat4qTb, execRaw, execRaw2, execRaw4, execFill,
      execDith, Instr.form]
    exact ⟨_, touchesPixelsOnly_curWrites _, fun _ => rfl⟩

/-! ### What one instruction comes to -/

/-- The bits of `STATUS` that say where a run stands; the other four only report (10_state.md R30). -/
def Flag.steers : Flag → Bool
  | .busy | .done | .fail | .early | .cfgErr | .payOvr => true
  | .wcOob | .wrOob | .srcOob | .remNeg => false

theorem raisedBy_of_steers (s t : State) {f : Flag} (hf : f.steers = true) : raisedBy s t f = false := by
  cases f <;> simp_all [Flag.steers, raisedBy]

theorem Flag.beq_of_steers {f : Flag} (hf : f.steers = true) :
    (f == .wrOob) = false ∧ (f == .srcOob) = false ∧ (f == .remNeg) = false := by
  cases f <;> simp_all [Flag.steers]

theorem flag_endOfBody_of_steers (op : Nibble) (u : State) {f : Flag} (hf : f.steers = true) :
    (endOfBody op u).flag f = u.flag f := by
  obtain ⟨hwr, hsrc, hrem⟩ := Flag.beq_of_steers hf
  simp [flag_endOfBody, hwr, hsrc, hrem]

/-- The dispatch leaves the run going: the steering bits and all but the pixels, the counters and the diagnostics are as
they were. -/
structure GoesOn (s t : State) : Prop where
  same : SameOutside s t
  flags : ∀ f, f.steers = true → t.flag f = s.flag f

/-- The dispatch ends the frame early (40_walker_dispatch.md R128). -/
structure EndsEarly (s t : State) : Prop where
  same : SameOutside s t
  flags : ∀ f, f.steers = true → t.flag f = (f != .busy && (s.flag f || f == .early || f == .done))

theorem SameOutside.of_endOfBody {s u : State} (op : Nibble) (h : SameOutside s u) :
    SameOutside s (endOfBody op u) := by
  rw [endOfBody_eq]; exact h

theorem SameOutside.of_endOfDispatch {s u : State} (op : Nibble) (h : SameOutside s u) :
    SameOutside s (noteWcOob op (endOfBody op u)) := by
  rw [endOfDispatch_eq]; exact h

theorem SameOutside.of_endEarly {s u : State} (h : SameOutside s u) : SameOutside s (endEarly u) := h

theorem sameOutside_skip (s : State) (wc : Nat) : SameOutside s { clearLatches s with wc := wc } :=
  ⟨rfl, rfl, rfl, rfl, rfl, rfl, rfl, rfl, rfl, rfl, rfl, rfl, rfl, rfl, rfl, rfl, rfl⟩

theorem flag_skip (s : State) (wc : Nat) (f : Flag) : State.flag { clearLatches s with wc := wc } f = s.flag f := rfl

theorem Advances.goesOn {op : Nibble} {n : Nat} {s t : State} (h : Advances op n s t) : GoesOn s t := by
  obtain ⟨-, -, -, hflag, -, hsame⟩ := h
  exact ⟨hsame, fun f hf => by rw [hflag, raisedBy_of_steers s t hf, Bool.or_false]⟩

theorem flag_endEarly (s : State) (f : Flag) :
    (endEarly s).flag f = (f != .busy && (s.flag f || f == .early || f == .done)) := by
  have h : (endEarly s).flag f = (((s.setFlag .early).setFlag .done).clearFlag .busy).flag f := rfl
  rw [h]
  cases hx : s.flag f <;> cases f <;> simp [hx] <;> rfl

theorem flag_endNormal (s : State) (f : Flag) : (endNormal s).flag f = ((s.flag f || .done == f) && .busy != f) := by
  have h : (endNormal s).flag f = ((s.setFlag .done).clearFlag .busy).flag f := rfl
  rw [h, State.flag_clearFlag, State.flag_setFlag]

theorem TakesPayloadOverrun.flags {op : Nibble} {s t : State} (h : TakesPayloadOverrun op s t) (f : Flag) :
    t.flag f = (f != .busy && (s.flag f || f == .payOvr || f == .fail)) := by
  obtain ⟨-, -, -, -, hflag, -⟩ := h
  exact hflag f

theorem TakesPayloadOverrun.host {op : Nibble} {s t : State} (h : TakesPayloadOverrun op s t) : t.host = s.host := by
  obtain ⟨-, -, -, -, -, -, -, -, -, -, -, -, -, -, -, -, -, -, -, -, -, hhost, -⟩ := h
  exact hhost

/-- `SKIP2` goes on or ends the frame early; it has no operands to run out of. -/
theorem execSkip2_outcome (s : State) :
    ∃ t, execSkip2 s = .next t ∧ (GoesOn s t ∨ EndsEarly s t) := by
  have hsame := sameOutside_skip s (skip2 s).1
  rcases execSkip2_cases s with ⟨-, h⟩ | ⟨-, h⟩
  · refine ⟨_, h, .inr ⟨(hsame.of_endOfBody _).of_endEarly, fun f hf => ?_⟩⟩
    rw [flag_endEarly, flag_endOfBody_of_steers _ _ hf, flag_skip]
  · refine ⟨_, h, .inl ⟨hsame.of_endOfDispatch _, fun f hf => ?_⟩⟩
    rw [flag_endOfDispatch, raisedBy_of_steers _ _ hf, Bool.or_false, flag_skip]

/-- Every instruction goes on, ends the frame early, or overruns the payload. -/
theorem exec_outcome (i : Instr) (s : State) :
    ∃ t, exec i s = .next t ∧ (GoesOn s t ∨ EndsEarly s t ∨ ∃ op, TakesPayloadOverrun op s t) := by
  by_cases hi : i = .skip2
  · subst hi
    obtain ⟨t, ht, h⟩ := execSkip2_outcome s
    exact ⟨t, ht, h.imp_right .inl⟩
  · obtain ⟨execute, hbody, hexec⟩ := exec_eq_dispatch i hi
    rw [hexec]
    by_cases hfits : i.form.length = 0 ∨ s.fits i.form.length
    · obtain ⟨t, ht, hadv, -⟩ := dispatch_advances i.form execute s hbody hfits
      exact ⟨t, ht, .inl hadv.goesOn⟩
    · obtain ⟨hlen, hcut⟩ := not_or.mp hfits
      obtain ⟨t, ht, hover⟩ := dispatch_overruns i.form execute s (Nat.pos_of_ne_zero hlen) hcut
      exact ⟨t, ht, .inr (.inr ⟨_, hover⟩)⟩

/-- One block of a busy decoder: the run goes on and the walker advances, or the frame ends early, or the payload
overruns. -/
theorem runBlock_outcome (s : State) (hbusy : s.flag .busy = true) :
    ∃ t, (GoesOn s t ∧ runBlock s = .next (walkerAdvance t))
      ∨ (runBlock s = .next t ∧ (EndsEarly s t ∨ ∃ op, TakesPayloadOverrun op s t)) := by
  rcases runBlock_cases s with ⟨-, h⟩ | ⟨i, rest, t, -, ht, h⟩
  · exact ⟨_, .inr ⟨h, .inr ⟨_, raisePayloadOverrun_takes _ s⟩⟩⟩
  · obtain ⟨t', ht', hout⟩ := exec_outcome i s
    obtain rfl : t = t' := Host.Outcome.next.inj (ht.symm.trans ht')
    refine ⟨t, ?_⟩
    rcases hout with hgo | hearly | ⟨op, hover⟩
    · have : t.flag .busy = true := by rw [hgo.flags _ rfl, hbusy]
      exact .inl ⟨hgo, by simp [h, this]⟩
    · have : t.flag .busy = false := hearly.flags _ rfl
      exact .inr ⟨by simp [h, this], .inl hearly⟩
    · have : t.flag .busy = false := hover.flags .busy
      exact .inr ⟨by simp [h, this], .inr ⟨op, hover⟩⟩

end Sys2Proof.Machine
end

section
/-! PROOF. The statements of 00_scope.md: an idle decoder keeps its state (R12), and every started frame ends. The second
rests on a measure: while a run is in progress each step raises the dispatch number `K = BY*NBX + BX`, which stays below
`NBX*NBY` (10_state.md R27). -/

namespace Sys2Proof.Machine

/-- Settles O49: the step of a machine without a host turn is the decoder's, and an idle decoder takes none. -/
theorem idleDecoderKeepsItsState : Obligations.IdleDecoderKeepsItsState := by
  intro s hhost hidle
  rw [step_of_no_host hhost]
  rcases decoderTurn_cases s with ⟨hbusy, -⟩ | ⟨-, h⟩
  · cases hidle.symm.trans hbusy
  · exact h

/-! ### A run in progress and a run that is over -/

/-- A run in progress, the decoder alone on the move: inside the grid, and of the steering bits only `BUSY` is set. -/
structure Running (s : State) : Prop where
  host : s.host = []
  blockX_lt : s.blockX < s.nbx
  blockY_lt : s.blockY < s.nby
  flags : ∀ f, f.steers = true → s.flag f = (f == .busy)

/-- A run that is over in one of the ways of 00_scope.md R12. -/
structure RunOver (t : State) : Prop where
  host : t.host = []
  idle : t.flag .busy = false
  cfgErr : t.flag .cfgErr = false
  ending : (t.flag .done = true ∧ t.flag .fail = false ∧ t.flag .payOvr = false)
    ∨ (t.flag .fail = true ∧ t.flag .payOvr = true ∧ t.flag .done = false ∧ t.flag .early = false)

theorem SameOutside.walker {s t : State} (h : SameOutside s t) :
    t.host = s.host ∧ t.blockX = s.blockX ∧ t.blockY = s.blockY ∧ t.nbx = s.nbx ∧ t.nby = s.nby := by
  obtain ⟨hw, hh, -, -, hx, hy, -, -, -, -, -, -, -, hhost, -⟩ := h
  exact ⟨hhost, hx, hy, by simp only [State.nbx, State.w, hw], by simp only [State.nby, State.h, hh]⟩

theorem Running.goesOn {s t : State} (hs : Running s) (h : GoesOn s t) : Running t := by
  obtain ⟨hhost, hx, hy, hnx, hny⟩ := h.same.walker
  exact ⟨hhost.trans hs.host, by rw [hx, hnx]; exact hs.blockX_lt, by rw [hy, hny]; exact hs.blockY_lt,
    fun f hf => by rw [h.flags f hf, hs.flags f hf]⟩

theorem GoesOn.dispatchNumber {s t : State} (h : GoesOn s t) : t.dispatchNumber = s.dispatchNumber := by
  obtain ⟨-, hx, hy, hnx, -⟩ := h.same.walker
  simp only [State.dispatchNumber, hx, hy, hnx]

theorem Running.endsEarly {s t : State} (hs : Running s) (h : EndsEarly s t) : RunOver t := by
  have hflag : ∀ f, f.steers = true → t.flag f = (f != .busy && (f == .busy || f == .early || f == .done)) :=
    fun f hf => by rw [h.flags f hf, hs.flags f hf]
  exact ⟨h.same.walker.1.trans hs.host, hflag .busy rfl, hflag .cfgErr rfl,
    .inl ⟨hflag .done rfl, hflag .fail rfl, hflag .payOvr rfl⟩⟩

theorem Running.overruns {op : Nibble} {s t : State} (hs : Running s) (h : TakesPayloadOverrun op s t) : RunOver t := by
  have hflag : ∀ f, f.steers = true → t.flag f = (f != .busy && (f == .busy || f == .payOvr || f == .fail)) :=
    fun f hf => by rw [h.flags, hs.flags f hf]
  exact ⟨h.host.trans hs.host, hflag .busy rfl, hflag .cfgErr rfl,
    .inr ⟨hflag .fail rfl, hflag .payOvr rfl, hflag .done rfl, hflag .early rfl⟩⟩

theorem RunOver.of_endNormal {s : State} (hhost : s.host = [])
    (hs : ∀ f, f.steers = true → s.flag f = (f == .busy)) : RunOver (endNormal s) := by
  have hflag : ∀ f, f.steers = true → (endNormal s).flag f = ((f == .busy || .done == f) && .busy != f) :=
    fun f hf => by rw [flag_endNormal, hs f hf]
  exact ⟨hhost, hflag .busy rfl, hflag .cfgErr rfl, .inl ⟨hflag .done rfl, hflag .fail rfl, hflag .payOvr rfl⟩⟩

/-! ### Progress -/

/-- A run in progress has dispatches left. -/
theorem Running.dispatchNumber_lt {s : State} (hs : Running s) : s.dispatchNumber < s.nbx * s.nby :=
  calc s.blockY * s.nbx + s.blockX
    _ < s.blockY * s.nbx + s.nbx := Nat.add_lt_add_left hs.blockX_lt _
    _ = (s.blockY + 1) * s.nbx := (Nat.succ_mul _ _).symm
    _ ≤ s.nby * s.nbx := Nat.mul_le_mul_right _ hs.blockY_lt
    _ = s.nbx * s.nby := Nat.mul_comm _ _

/-- The run is one dispatch further in the same frame. -/
structure OneFurther (s t : State) : Prop where
  running : Running t
  blocks : t.nbx * t.nby = s.nbx * s.nby
  number : t.dispatchNumber = s.dispatchNumber + 1

/-- The walker's advance takes a run one dispatch further or ends the frame normally (40_walker_dispatch.md R126,
R127). -/
theorem Running.advances_or_ends {s : State} (hs : Running s) :
    OneFurther s (walkerAdvance s) ∨ RunOver (walkerAdvance s) := by
  have hX := hs.blockX_lt
  have hY := hs.blockY_lt
  rcases walkerAdvance_cases s with ⟨hx, h⟩ | ⟨hx, hy, h⟩ | ⟨-, -, h⟩ <;> rw [h]
  · exact .inl ⟨⟨hs.host, Nat.lt_of_le_of_ne hX hx, hY, hs.flags⟩, rfl, rfl⟩
  · refine .inl ⟨⟨hs.host, Nat.zero_lt_of_lt hX, Nat.lt_of_le_of_ne hY hy, hs.flags⟩, rfl, ?_⟩
    show (s.blockY + 1) * s.nbx + 0 = s.blockY * s.nbx + s.blockX + 1
    rw [Nat.succ_mul, Nat.add_assoc _ s.blockX, hx, Nat.add_zero]
  · exact .inr (.of_endNormal hs.host hs.flags)

/-- Each step of a run in progress takes it one dispatch further or ends it. -/
theorem Running.step_progresses {s : State} (hs : Running s) :
    ∃ t, step s = .next t ∧ (OneFurther s t ∨ RunOver t) := by
  have hbusy : s.flag .busy = true := hs.flags .busy rfl
  have hstep : step s = runBlock s := by
    rw [step_of_no_host hs.host, decoderTurn, if_pos hbusy]
  rw [hstep]
  obtain ⟨t, ⟨hgo, hrun⟩ | ⟨hrun, hearly | ⟨op, hover⟩⟩⟩ := runBlock_outcome s hbusy
  · refine ⟨_, hrun, (hs.goesOn hgo).advances_or_ends.imp_left fun h => ?_⟩
    obtain ⟨-, -, -, hnx, hny⟩ := hgo.same.walker
    exact ⟨h.running, by rw [h.blocks, hnx, hny], by rw [h.number, hgo.dispatchNumber]⟩
  · exact ⟨t, hrun, .inr (hs.endsEarly hearly)⟩
  · exact ⟨t, hrun, .inr (hs.overruns hover)⟩

/-! ### Whole runs -/

theorem coreRun_succ {M : Host.Core} {s t : M.State} (k : Nat) (h : M.step s = .next t) :
    M.run (k + 1) s = M.run k t := by
  rw [Host.Core.run, h]

theorem run_succ {s t : State} (k : Nat) (h : step s = .next t) :
    Host.Core.run Sys2Proof.core (k + 1) s = Host.Core.run Sys2Proof.core k t :=
  coreRun_succ (M := Sys2Proof.core) k h

/-- A run that is over stays where it is: the idle steps that fill the count (log 11). -/
theorem RunOver.run_stays {t : State} (h : RunOver t) (k : Nat) : Host.Core.run Sys2Proof.core k t = .next t := by
  induction k with
  | zero => rfl
  | succ k ih => rw [run_succ k (idleDecoderKeepsItsState t h.host h.idle), ih]

/-- As many steps as there are dispatches left end a run in progress. -/
theorem Running.run_ends {s : State} (hs : Running s) (k : Nat) (hk : s.nbx * s.nby ≤ s.dispatchNumber + k) :
    ∃ t, Host.Core.run Sys2Proof.core k s = .next t ∧ RunOver t := by
  induction k generalizing s with
  | zero => exact absurd hs.dispatchNumber_lt (Nat.not_lt.mpr hk)
  | succ k ih =>
    obtain ⟨t, hstep, hnext | hover⟩ := hs.step_progresses
    · rw [run_succ k hstep]
      exact ih hnext.running (by rw [hnext.blocks, hnext.number]; omega)
    · exact ⟨t, by rw [run_succ k hstep, hover.run_stays k], hover⟩

/-! ### The start of a run -/

theorem flag_acceptStart (s : State) (f : Flag) : (acceptStart s).flag f = (f == .busy) := by
  unfold acceptStart
  rw [State.flag_setFlag, BEq.comm]
  simp [State.flag]

/-- A legal configuration has at least one block. -/
theorem State.blocks_pos_of_legal {s : State} (h : s.legal = true) : 0 < s.nbx ∧ 0 < s.nby := by
  simp only [State.legal, Bool.and_eq_true, bne_iff_ne, beq_iff_eq] at h
  obtain ⟨⟨⟨hw, hw16⟩, hh⟩, hh8⟩ := h
  simp only [State.nbx, State.nby]
  omega

/-- An accepted `START` begins a run at its first dispatch. -/
theorem running_acceptStart {s : State} (hhost : s.host = []) (hlegal : s.legal = true) : Running (acceptStart s) :=
  ⟨hhost, (State.blocks_pos_of_legal hlegal).1, (State.blocks_pos_of_legal hlegal).2, fun f _ => flag_acceptStart s f⟩

/-- The turn that writes 1 to `CTRL.START` of an idle machine with a legal configuration (40_walker_dispatch.md R120). -/
theorem step_of_start {s : State} {v : BitVec 64} {rest : List HostTurn} (hhost : s.host = .writeReg 4 v :: rest)
    (hv : v.getLsbD 0 = true) (hidle : s.flag .busy = false) (hlegal : s.legal = true) :
    step s = .next (acceptStart { s with host := rest }) := by
  have hidle' : ({ s with host := rest } : State).flag .busy = false := hidle
  have hlegal' : ({ s with host := rest } : State).legal = true := hlegal
  simp [step, turn, hhost, writeRegister, hv, startFrame, hidle', hlegal']

/-- Settles O58: the `START` begins a run at dispatch 0 of `NBX*NBY`, and each further step takes it one dispatch further
or ends it. -/
theorem everyStartedFrameEnds : Obligations.EveryStartedFrameEnds := by
  intro s v hhost hv hidle hlegal
  have hs : Running (acceptStart { s with host := [] }) := running_acceptStart rfl hlegal
  obtain ⟨t, hrun, hover⟩ := hs.run_ends (s.nbx * s.nby) (Nat.le_add_left _ _)
  refine ⟨t, ?_, hover.idle, hover.cfgErr, hover.ending⟩
  rw [Nat.add_comm, run_succ _ (step_of_start hhost hv hidle hlegal)]
  exact hrun

end Sys2Proof.Machine
end

section
/-! PROOF. What one block of a running decoder does to the registers: the opcode of what was decoded is the one fetched, and a
dispatch that completes moves the cursor as its opcode says, consumes operands the payload holds, and clears no flag but
`BUSY` (10_state.md R30; 40_walker_dispatch.md R123 to R128). -/

namespace Sys2Proof

/-! ### The opcode of what was decoded -/

theorem Form.opcode_of_formOf {op : Opcode} {p : List Byte} {f : Form} (h : formOf op p = some f) : f.opcode = op := by
  cases op
  case pat2 | pat2q | pat4 | pat4q =>
    simp only [formOf] at h
    repeat' split at h
    all_goals cases h <;> rfl
  all_goals cases h; rfl

theorem Instr.form_of_readOperands {f : Form} {p rest : List Byte} {i : Instr}
    (h : readOperands f p = some (i, rest)) : i.form = f := by
  cases f
  case cph | keep | skip2 => cases h; rfl
  all_goals
    simp only [readOperands, Option.map_eq_some_iff] at h
    obtain ⟨_, -, h⟩ := h
    cases h
    rfl

/-- The decoder answers an instruction of the opcode it was given (30_encoding.md R90, R94). -/
theorem opcode_of_decode {v : Nibble} {p rest : List Byte} {i : Instr} (h : decode v p = .ok (i, rest)) :
    i.form.opcode.nibble = v := by
  unfold decode at h
  split at h
  case h_2 => cases h
  case h_1 r hr =>
    obtain rfl : r = (i, rest) := Except.ok.inj h
    obtain ⟨f, hf, hi⟩ := Option.bind_eq_some_iff.mp hr
    rw [Instr.form_of_readOperands hi, Form.opcode_of_formOf hf, Opcode.nibble_ofNibble]

namespace Machine

/-! ### What a completed dispatch does to the cursor, the counters and the flags -/

/-- In a frame of at least two block columns the two steps of `skip2()` wrap at most once (43_skip_op.md R190). -/
theorem skip2_wc_cases {s : State} (h : 2 ≤ s.nbx) :
    (skip2 s).1 = s.wc + 16 ∨ (skip2 s).1 = s.wc + 8 + 7 * s.w ∨ (skip2 s).1 = s.wc + 16 + 7 * s.w := by
  by_cases hx : s.blockX + 1 = s.nbx
  · have hx' : ¬ (1 = s.nbx) := by omega
    by_cases hy : s.blockY + 1 = s.nby
    · exact .inr (.inl (by simp [skip2, skipStep, hx, hy]))
    · exact .inr (.inr (by simp [skip2, skipStep, hx, hy, hx']; omega))
  · by_cases hx' : s.blockX + 1 + 1 = s.nbx
    · exact .inr (.inr (by simp [skip2, skipStep, hx, hx']))
    · exact .inl (by simp [skip2, skipStep, hx, hx'])

/-- A dispatch ran to its end: the write cursor moves by the common advance or as `SKIP2` says, the payload counters by
operands the payload holds, and no flag but `BUSY` falls. -/
structure Completes (s t : State) : Prop where
  same : SameOutside s t
  wc : t.wc = s.wc + 8 ∨ t.wc = (skip2 s).1
  counters : ∃ n : Nat, (n = 0 ∨ s.fits n) ∧ t.dp = s.dp + n ∧ t.dr = s.dr - n
  sticky : ∀ f, f ≠ .busy → s.flag f = true → t.flag f = true

theorem Advances.completes {op : Nibble} {n : Nat} {s t : State} (h : Advances op n s t) (hn : n = 0 ∨ s.fits n) :
    Completes s t := by
  obtain ⟨hwc, hdp, hdr, hflag, -, hsame⟩ := h
  exact ⟨hsame, .inl hwc, ⟨n, hn, hdp, hdr⟩, fun f _ hf => by rw [hflag, hf, Bool.true_or]⟩

/-- The state `SKIP2` hands to the end of its dispatch. -/
theorem completes_skip (s : State) : Completes s { clearLatches s with wc := (skip2 s).1 } :=
  ⟨sameOutside_skip s _, .inr rfl, ⟨0, .inl rfl, rfl, (Int.sub_zero _).symm⟩, fun _ _ hf => hf⟩

theorem Completes.endOfBody {s u : State} (op : Nibble) (h : Completes s u) : Completes s (endOfBody op u) := by
  refine ⟨h.same.of_endOfBody op, ?_, ?_, fun f hb hf => ?_⟩
  · rw [endOfBody_eq]; exact h.wc
  · rw [endOfBody_eq]; exact h.counters
  · rw [flag_endOfBody, h.sticky f hb hf]; rfl

theorem Completes.endOfDispatch {s u : State} (op : Nibble) (h : Completes s u) :
    Completes s (noteWcOob op (Machine.endOfBody op u)) := by
  refine ⟨h.same.of_endOfDispatch op, ?_, ?_, fun f hb hf => ?_⟩
  · rw [endOfDispatch_eq]; exact h.wc
  · rw [endOfDispatch_eq]; exact h.counters
  · rw [flag_endOfDispatch, h.sticky f hb hf]; rfl

theorem Completes.endEarly {s u : State} (h : Completes s u) : Completes s (endEarly u) := by
  refine ⟨h.same.of_endEarly, h.wc, h.counters, fun f hb hf => ?_⟩
  rw [flag_endEarly, h.sticky f hb hf, bne_iff_ne.mpr hb]; rfl

/-- `SKIP2` completes, whether the run goes on or the frame ends early. -/
theorem execSkip2_completes {s t : State} (h : execSkip2 s = .next t) : Completes s t := by
  rcases execSkip2_cases s with ⟨-, hcase⟩ | ⟨-, hcase⟩
  · obtain rfl := Host.Outcome.next.inj (h.symm.trans hcase)
    exact ((completes_skip s).endOfBody _).endEarly
  · obtain rfl := Host.Outcome.next.inj (h.symm.trans hcase)
    exact (completes_skip s).endOfDispatch _

/-- An instruction completes, and the run goes on or the frame ends early, or it takes the exception under its own
opcode. -/
theorem exec_completes_or_overruns {i : Instr} {s t : State} (h : exec i s = .next t) :
    (Completes s t ∧ (GoesOn s t ∨ EndsEarly s t)) ∨ TakesPayloadOverrun i.form.opcode.nibble s t := by
  by_cases hi : i = .skip2
  · subst hi
    obtain ⟨t', ht', hout⟩ := execSkip2_outcome s
    obtain rfl : t = t' := Host.Outcome.next.inj (h.symm.trans ht')
    exact .inl ⟨execSkip2_completes h, hout⟩
  · obtain ⟨execute, hbody, hexec⟩ := exec_eq_dispatch i hi
    rw [hexec] at h
    by_cases hfits : i.form.length = 0 ∨ s.fits i.form.length
    · obtain ⟨t', ht', hadv, -⟩ := dispatch_advances i.form execute s hbody hfits
      obtain rfl : t = t' := Host.Outcome.next.inj (h.symm.trans ht')
      exact .inl ⟨hadv.completes hfits, .inl hadv.goesOn⟩
    · obtain ⟨hlen, hcut⟩ := not_or.mp hfits
      obtain ⟨t', ht', hover⟩ := dispatch_overruns i.form execute s (Nat.pos_of_ne_zero hlen) hcut
      obtain rfl : t = t' := Host.Outcome.next.inj (h.symm.trans ht')
      exact .inr hover

/-! ### One block of a running decoder -/

/-- What one block comes to: the walker moves on, the frame ends early, or the exception is taken under the fetched
opcode. -/
inductive BlockOutcome (s : State) : State → Prop
  | goesOn {u : State} (completes : Completes s u) (goesOn : GoesOn s u) : BlockOutcome s (walkerAdvance u)
  | endsEarly {t : State} (completes : Completes s t) (endsEarly : EndsEarly s t) : BlockOutcome s t
  | overruns {t : State} (overruns : TakesPayloadOverrun (fetchOpcode s) s t) : BlockOutcome s t

theorem blockOutcome_of_runBlock {s t : State} (hbusy : s.flag .busy = true) (h : runBlock s = .next t) :
    BlockOutcome s t := by
  rcases runBlock_cases s with ⟨-, hrun⟩ | ⟨i, rest, u, hdec, hu, hrun⟩
  · obtain rfl := Host.Outcome.next.inj (h.symm.trans hrun)
    exact .overruns (raisePayloadOverrun_takes _ s)
  · have ht := Host.Outcome.next.inj (h.symm.trans hrun)
    rcases exec_completes_or_overruns hu with ⟨hcomp, hgo | hearly⟩ | hover
    · have hbusy' : u.flag .busy = true := by rw [hgo.flags _ rfl, hbusy]
      rw [if_pos hbusy'] at ht
      exact ht ▸ .goesOn hcomp hgo
    · have hidle : u.flag .busy = false := hearly.flags _ rfl
      rw [hidle, if_neg Bool.false_ne_true] at ht
      exact ht ▸ .endsEarly hcomp hearly
    · have hidle : u.flag .busy = false := hover.flags .busy
      rw [hidle, if_neg Bool.false_ne_true] at ht
      exact ht ▸ .overruns (opcode_of_decode hdec ▸ hover)

end Machine
end Sys2Proof
end

section
/-! PROOF. What one step of the whole machine does to the registers: a turn is quiet, a `START` taken while idle, a reset, or
one block of a running decoder (10_state.md R23, R40; 40_walker_dispatch.md R120). -/

namespace Sys2Proof.Machine

/-! ### The fault record -/

/-- The fault record of `t` is that of `s` (10_state.md R31). -/
def SameFaultRecord (s t : State) : Prop :=
  t.faultOp = s.faultOp ∧ t.faultX = s.faultX ∧ t.faultY = s.faultY ∧ t.faultDp = s.faultDp

theorem SameFaultRecord.refl (s : State) : SameFaultRecord s s := ⟨rfl, rfl, rfl, rfl⟩

theorem SameFaultRecord.trans {s t u : State} (h : SameFaultRecord s t) (h' : SameFaultRecord t u) :
    SameFaultRecord s u := by
  obtain ⟨hop, hx, hy, hdp⟩ := h
  obtain ⟨hop', hx', hy', hdp'⟩ := h'
  exact ⟨hop'.trans hop, hx'.trans hx, hy'.trans hy, hdp'.trans hdp⟩

/-! ### Host turns at the register port -/

/-- A turn that leaves `STATUS`, the working registers and the fault record alone, and the configuration too unless the
decoder is idle (10_state.md R23). -/
structure QuietTurn (s t : State) : Prop where
  status : t.status = s.status
  cursor : t.wc = s.wc ∧ t.blockX = s.blockX ∧ t.blockY = s.blockY
  counters : t.dp = s.dp ∧ t.dr = s.dr
  fault : SameFaultRecord s t
  config : s.flag .busy = true →
    t.width = s.width ∧ t.height = s.height ∧ t.payLen = s.payLen ∧ t.payRem = s.payRem

theorem QuietTurn.flag {s t : State} (h : QuietTurn s t) (f : Flag) : t.flag f = s.flag f := by
  simp only [State.flag, h.status]

theorem QuietTurn.refl (s : State) : QuietTurn s s :=
  ⟨rfl, ⟨rfl, rfl, rfl⟩, ⟨rfl, rfl⟩, .refl _, fun _ => ⟨rfl, rfl, rfl, rfl⟩⟩

/-- Taking the turn off the host's list is no more than that. -/
theorem QuietTurn.of_host {s t : State} (rest : List HostTurn) (h : QuietTurn { s with host := rest } t) :
    QuietTurn s t :=
  ⟨h.status, h.cursor, h.counters, h.fault, h.config⟩

theorem writeRegister_of_busy {s : State} {n : Nat} (v : BitVec 64) (hn : n ≠ 4) (hbusy : s.flag .busy = true) :
    writeRegister n v s = s := by
  unfold writeRegister
  split
  case h_5 => exact absurd rfl hn
  case h_6 => rfl
  all_goals exact if_pos hbusy

theorem writeRegister_of_readOnly (s : State) {n : Nat} (v : BitVec 64) (hn : 5 ≤ n) : writeRegister n v s = s := by
  unfold writeRegister
  split
  case h_6 => rfl
  all_goals omega

/-- A write to a register other than `CTRL` reaches the configuration at most, and only while idle. -/
theorem writeRegister_quiet (s : State) {n : Nat} (v : BitVec 64) (hn : n ≠ 4) : QuietTurn s (writeRegister n v s) := by
  by_cases hbusy : s.flag .busy = true
  · rw [writeRegister_of_busy v hn hbusy]
    exact .refl s
  · unfold writeRegister
    split
    case h_5 => exact absurd rfl hn
    case h_6 => exact .refl s
    all_goals
      rw [if_neg hbusy]
      exact ⟨rfl, ⟨rfl, rfl, rfl⟩, ⟨rfl, rfl⟩, .refl _, fun h => absurd h hbusy⟩

/-- A read changes `readData` and the count of draws only (10_state.md R40). -/
theorem readRegister_eq (n : Nat) (s : State) :
    readRegister n s = { s with readData := (readRegister n s).readData, draws := (readRegister n s).draws } := by
  unfold readRegister
  repeat' split
  all_goals rfl

theorem readRegister_quiet (n : Nat) (s : State) : QuietTurn s (readRegister n s) := by
  rw [readRegister_eq]
  exact ⟨rfl, ⟨rfl, rfl, rfl⟩, ⟨rfl, rfl⟩, .refl _, fun _ => ⟨rfl, rfl, rfl, rfl⟩⟩

theorem setMemory_quiet (s : State) (sp : Space) (m : Memory) : QuietTurn s (s.setMemory sp m) := by
  cases sp <;>
    exact ⟨rfl, ⟨rfl, rfl, rfl⟩, ⟨rfl, rfl⟩, .refl _, fun _ => ⟨rfl, rfl, rfl, rfl⟩⟩

theorem hostWriteMem_quiet {sp : Space} {a : Nat} {v : Byte} {s t : State} (h : hostWriteMem sp a v s = .next t) :
    QuietTurn s t := by
  unfold hostWriteMem at h
  repeat' split at h
  all_goals cases h
  exact setMemory_quiet s sp _

theorem hostReadMem_quiet {sp : Space} {a : Nat} {s t : State} (h : hostReadMem sp a s = .next t) : QuietTurn s t := by
  unfold hostReadMem at h
  repeat' split at h
  all_goals cases h
  exact ⟨rfl, ⟨rfl, rfl, rfl⟩, ⟨rfl, rfl⟩, .refl _, fun _ => ⟨rfl, rfl, rfl, rfl⟩⟩

/-! ### One step of the whole machine -/

/-- The next turn is a `START`: a write to `CTRL` with bit 0 set (40_walker_dispatch.md R120). -/
def StartsNext (s : State) : Prop :=
  ∃ v turns, s.host = .writeReg 4 v :: turns ∧ v.getLsbD 0 = true

/-- What a step comes to, as far as the registers see it. -/
inductive StepOutcome (s : State) : State → Prop
  | quiet {t : State} (quiet : QuietTurn s t) (ignored : StartsNext s → s.flag .busy = true) : StepOutcome s t
  | accepts {turns : List HostTurn} (starts : StartsNext s) (idle : s.flag .busy = false) (legal : s.legal = true) :
      StepOutcome s (acceptStart { s with host := turns })
  | refuses {turns : List HostTurn} (starts : StartsNext s) (idle : s.flag .busy = false) :
      StepOutcome s (refuseStart { s with host := turns })
  | resets {turns : List HostTurn} (host : s.host = .reset :: turns) :
      StepOutcome s (hardReset { s with host := turns })
  | dispatches {turns : List HostTurn} {t : State} (busy : s.flag .busy = true)
      (block : BlockOutcome { s with host := turns } t) : StepOutcome s t

theorem not_startsNext {s : State} {act : HostTurn} {rest : List HostTurn} (h : s.host = act :: rest)
    (hact : ∀ v, act ≠ .writeReg 4 v) : ¬ StartsNext s := by
  rintro ⟨v, turns, hhost, -⟩
  exact hact v (List.cons.inj (h.symm.trans hhost)).1

/-- The decoder's turn with the host's list as `turns`: idle it is quiet, busy it is a block. -/
theorem stepOutcome_of_decoderTurn {s t : State} {turns : List HostTurn} (hstart : ¬ StartsNext s)
    (h : decoderTurn { s with host := turns } = .next t) : StepOutcome s t := by
  rcases decoderTurn_cases { s with host := turns } with ⟨hbusy, hturn⟩ | ⟨-, hturn⟩
  · exact .dispatches hbusy (blockOutcome_of_runBlock hbusy (hturn.symm.trans h))
  · obtain rfl := Host.Outcome.next.inj (hturn.symm.trans h)
    exact .quiet (.of_host turns (.refl _)) fun hs => absurd hs hstart

/-- The turn that writes `CTRL` (40_walker_dispatch.md R120). -/
theorem stepOutcome_of_writeCtrl {s : State} {v : BitVec 64} {rest : List HostTurn}
    (hhost : s.host = .writeReg 4 v :: rest) : StepOutcome s (writeRegister 4 v { s with host := rest }) := by
  have hquiet : QuietTurn s { s with host := rest } := .of_host rest (.refl _)
  show StepOutcome s (if v.getLsbD 0 then startFrame { s with host := rest } else { s with host := rest })
  by_cases hv : v.getLsbD 0 = true
  · have hstarts : StartsNext s := ⟨v, rest, hhost, hv⟩
    rw [if_pos hv, startFrame]
    split
    · next hbusy => exact .quiet hquiet fun _ => hbusy
    · next hidle =>
      split
      · next hlegal => exact .accepts hstarts (Bool.eq_false_of_not_eq_true hidle) hlegal
      · exact .refuses hstarts (Bool.eq_false_of_not_eq_true hidle)
  · rw [if_neg hv]
    refine .quiet hquiet fun ⟨v', turns, hhost', hv'⟩ => ?_
    obtain ⟨⟨⟩, rfl⟩ := List.cons.inj (hhost.symm.trans hhost')
    exact absurd hv' hv

theorem stepOutcome_of_step {s t : State} (h : step s = .next t) : StepOutcome s t := by
  rcases step_cases s with ⟨hhost, hst⟩ | ⟨rest, ⟨hhost, hst⟩ | ⟨n, v, hhost, hst⟩ | ⟨n, hhost, hst⟩
    | ⟨sp, a, v, hhost, hst⟩ | ⟨sp, a, hhost, hst⟩ | ⟨hhost, hst⟩⟩ <;> rw [hst] at h
  · refine stepOutcome_of_decoderTurn (turns := s.host) ?_ h
    rintro ⟨v, turns, hs, -⟩
    cases hhost.symm.trans hs
  · exact stepOutcome_of_decoderTurn (not_startsNext hhost fun _ => nofun) h
  · obtain rfl := Host.Outcome.next.inj h
    by_cases hn : n = 4
    · subst hn
      exact stepOutcome_of_writeCtrl hhost
    · refine .quiet (.of_host rest (writeRegister_quiet _ v hn)) fun hs => absurd hs (not_startsNext hhost fun v' => ?_)
      rintro ⟨⟩
      exact hn rfl
  · obtain rfl := Host.Outcome.next.inj h
    exact .quiet (.of_host rest (readRegister_quiet n _)) fun hs => absurd hs (not_startsNext hhost fun _ => nofun)
  · exact .quiet (.of_host rest (hostWriteMem_quiet h)) fun hs => absurd hs (not_startsNext hhost fun _ => nofun)
  · exact .quiet (.of_host rest (hostReadMem_quiet h)) fun hs => absurd hs (not_startsNext hhost fun _ => nofun)
  · obtain rfl := Host.Outcome.next.inj h
    exact .resets hhost

/-! ### What the walker's advance keeps -/

theorem walkerAdvance_fault (s : State) : SameFaultRecord s (walkerAdvance s) := by
  rcases walkerAdvance_cases s with ⟨-, h⟩ | ⟨-, -, h⟩ | ⟨-, -, h⟩ <;> rw [h] <;> exact .refl s

/-- The flags after the walker's advance: as before, or those of a normal end (40_walker_dispatch.md R127). -/
theorem flag_walkerAdvance (s : State) :
    (∀ f, (walkerAdvance s).flag f = s.flag f)
      ∨ ∀ f, (walkerAdvance s).flag f = ((s.flag f || .done == f) && .busy != f) := by
  rcases walkerAdvance_cases s with ⟨-, h⟩ | ⟨-, -, h⟩ | ⟨-, -, h⟩ <;> rw [h]
  · exact .inl fun _ => rfl
  · exact .inl fun _ => rfl
  · exact .inr fun f => flag_endNormal _ f

theorem SameOutside.fault {s t : State} (h : SameOutside s t) : SameFaultRecord s t := by
  obtain ⟨-, -, -, -, -, -, hop, hx, hy, hdp, -⟩ := h
  exact ⟨hop, hx, hy, hdp⟩

theorem SameOutside.config {s t : State} (h : SameOutside s t) :
    t.width = s.width ∧ t.height = s.height ∧ t.payLen = s.payLen ∧ t.payRem = s.payRem := by
  obtain ⟨hw, hh, hlen, hrem, -⟩ := h
  exact ⟨hw, hh, hlen, hrem⟩

end Sys2Proof.Machine
end

section
/-! PROOF. The statements about `STATUS` and the fault record (10_state.md R30, R31, R37): what each outcome of a step does
to them, then the obligations. -/

namespace Sys2Proof.Machine

/-! ### The steering flags -/

/-- A consistent `STATUS` word with `BUSY` set has none of the other steering bits set. -/
theorem StatusConsistent.flags_of_busy {s : State} (hs : StatusConsistent s) (hbusy : s.flag .busy = true) :
    ∀ f, f.steers = true → s.flag f = (f == .busy) := by
  obtain ⟨-, hone, hfail, hearly⟩ := hs
  simp only [hbusy, Bool.true_and, Bool.or_eq_false_iff] at hone
  obtain ⟨hdone, hnofail⟩ := hone
  rw [hnofail, eq_comm, Bool.or_eq_false_iff] at hfail
  intro f hf
  cases f with
  | busy => exact hbusy
  | done => exact hdone
  | fail => exact hnofail
  | early => exact Bool.eq_false_of_not_eq_true fun h => Bool.false_ne_true (hdone.symm.trans (hearly h))
  | cfgErr => exact hfail.1
  | payOvr => exact hfail.2
  | wcOob | wrOob | srcOob | remNeg => cases hf

/-- `STATUS` is consistent and says that a run is in progress or over. -/
def StatusStarted (s : State) : Prop := StatusConsistent s ∧ OneOfBusyDoneFail s

/-- Both are read off the steering flags. -/
theorem statusStarted_of_flags {t : State} (g : Flag → Bool) (h : ∀ f, f.steers = true → t.flag f = g f)
    (hfail : g .fail = (g .cfgErr || g .payOvr)) (hearly : g .early = true → g .done = true)
    (hone : (g .busy).toNat + (g .done).toNat + (g .fail).toNat = 1) : StatusStarted t := by
  unfold StatusStarted StatusConsistent OneOfBusyDoneFail
  rw [h .busy rfl, h .done rfl, h .fail rfl, h .early rfl, h .cfgErr rfl, h .payOvr rfl]
  refine ⟨⟨?_, ?_, hfail, hearly⟩, hone⟩
  all_goals revert hone; cases g .busy <;> cases g .done <;> cases g .fail <;> simp

theorem statusStarted_of_busy {t : State} (h : ∀ f, f.steers = true → t.flag f = (f == .busy)) : StatusStarted t :=
  statusStarted_of_flags _ h rfl nofun rfl

theorem statusStarted_acceptStart (s : State) : StatusStarted (acceptStart s) :=
  statusStarted_of_busy fun f _ => flag_acceptStart s f

/-- A refused `START` leaves `CFG_ERR` and `FAIL` and no other flag (60_exceptions.md R263). -/
theorem flag_refuseStart (s : State) (f : Flag) : (refuseStart s).flag f = (f == .cfgErr || f == .fail) := by
  unfold refuseStart
  rw [State.flag_setFlag, State.flag_setFlag, BEq.comm (a := f), BEq.comm (a := f)]
  simp [State.flag]

theorem statusStarted_refuseStart (s : State) : StatusStarted (refuseStart s) :=
  statusStarted_of_flags _ (fun f _ => flag_refuseStart s f) rfl nofun rfl

/-- From a running decoder with a consistent `STATUS`, the walker's advance keeps the run going or ends it with `DONE`. -/
theorem statusStarted_walkerAdvance {s : State} (hs : ∀ f, f.steers = true → s.flag f = (f == .busy)) :
    StatusStarted (walkerAdvance s) := by
  rcases flag_walkerAdvance s with h | h
  · exact statusStarted_of_busy fun f hf => by rw [h, hs f hf]
  · exact statusStarted_of_flags (fun f => (f == .busy || .done == f) && .busy != f)
      (fun f hf => by rw [h, hs f hf]) rfl nofun rfl

/-- Every block of a running decoder leaves the run in progress or over in one of its ways. -/
theorem BlockOutcome.statusStarted {s t : State} (h : BlockOutcome s t) (hs : StatusConsistent s)
    (hbusy : s.flag .busy = true) : StatusStarted t := by
  have hflags := hs.flags_of_busy hbusy
  cases h with
  | goesOn _ hgo => exact statusStarted_walkerAdvance fun f hf => by rw [hgo.flags f hf, hflags f hf]
  | endsEarly _ hearly =>
    exact statusStarted_of_flags (fun f => f != .busy && (f == .busy || f == .early || f == .done))
      (fun f hf => by rw [hearly.flags f hf, hflags f hf]) rfl (fun _ => rfl) rfl
  | overruns hover =>
    exact statusStarted_of_flags (fun f => f != .busy && (f == .busy || f == .payOvr || f == .fail))
      (fun f hf => by rw [hover.flags, hflags f hf]) rfl nofun rfl

theorem QuietTurn.statusConsistent {s t : State} (h : QuietTurn s t) (hs : StatusConsistent s) : StatusConsistent t := by
  simpa only [StatusConsistent, h.flag] using hs

theorem QuietTurn.oneOfBusyDoneFail {s t : State} (h : QuietTurn s t) (hs : OneOfBusyDoneFail s) :
    OneOfBusyDoneFail t := by
  simpa only [OneOfBusyDoneFail, h.flag] using hs

/-- A consistent `STATUS` with `BUSY` set has exactly one of the three bits set. -/
theorem StatusConsistent.oneOf_of_busy {s : State} (hs : StatusConsistent s) (hbusy : s.flag .busy = true) :
    OneOfBusyDoneFail s :=
  (statusStarted_of_busy (hs.flags_of_busy hbusy)).2

theorem flag_reset (f : Flag) : State.reset.flag f = false := BitVec.getLsbD_zero

theorem statusConsistent_reset : StatusConsistent State.reset := by
  simp [StatusConsistent, flag_reset]

theorem statusConsistent_hardReset (s : State) : StatusConsistent (hardReset s) := statusConsistent_reset

/-- Settles O52: a quiet turn keeps `STATUS`, a reset clears it, and a `START` and a dispatch leave one of the words of a
run. -/
theorem everyStepKeepsStatusConsistent : Obligations.EveryStepKeepsStatusConsistent := by
  intro s t hs hstep
  cases stepOutcome_of_step hstep with
  | quiet hquiet => exact hquiet.statusConsistent hs
  | accepts => exact (statusStarted_acceptStart _).1
  | refuses => exact (statusStarted_refuseStart _).1
  | resets => exact statusConsistent_hardReset _
  | dispatches hbusy hblock => exact (hblock.statusStarted hs hbusy).1

/-- Settles O53: only a quiet turn does not bring about one of the three bits itself, and there one of them was set. -/
theorem onceStartedExactlyOneOfBusyDoneFail : Obligations.OnceStartedExactlyOneOfBusyDoneFail := by
  intro s t hs hstep hreset hstarted
  cases stepOutcome_of_step hstep with
  | quiet hquiet hignored =>
    rcases hstarted with hstarts | hone
    · exact hquiet.oneOfBusyDoneFail (hs.oneOf_of_busy (hignored hstarts))
    · exact hquiet.oneOfBusyDoneFail hone
  | accepts => exact (statusStarted_acceptStart _).2
  | refuses => exact (statusStarted_refuseStart _).2
  | resets hhost => exact absurd hhost (hreset _)
  | dispatches hbusy hblock => exact (hblock.statusStarted hs hbusy).2

/-! ### Flags once set -/

/-- A block clears no flag but `BUSY`. -/
theorem BlockOutcome.sticky {s t : State} (h : BlockOutcome s t) {f : Flag} (hf : f ≠ .busy) (hset : s.flag f = true) :
    t.flag f = true := by
  cases h with
  | @goesOn u hcomp _ =>
    have hu : u.flag f = true := hcomp.sticky f hf hset
    rcases flag_walkerAdvance u with h | h
    · rw [h, hu]
    · rw [h, hu, bne_iff_ne.mpr hf.symm]; rfl
  | endsEarly hcomp _ => exact hcomp.sticky f hf hset
  | overruns hover => rw [hover.flags, hset, bne_iff_ne.mpr hf]; rfl

/-- Settles O54: a `START` taken while idle and a reset are excluded, and no other step clears a flag but `BUSY`. -/
theorem flagsStaySetUntilStartOrReset : Obligations.FlagsStaySetUntilStartOrReset := by
  intro s t f hstep hreset hignored hf hset
  have hidle : StartsNext s → s.flag .busy ≠ false := by
    rintro ⟨v, turns, hhost, hv⟩
    rcases hignored v turns hhost with hv' | hbusy
    · cases hv.symm.trans hv'
    · simp [hbusy]
  cases stepOutcome_of_step hstep with
  | quiet hquiet => rw [hquiet.flag, hset]
  | accepts hstarts h => exact absurd h (hidle hstarts)
  | refuses hstarts h => exact absurd h (hidle hstarts)
  | resets hhost => exact absurd hhost (hreset _)
  | dispatches _ hblock => exact hblock.sticky hf hset

/-! ### The fault record -/

/-- A block keeps the fault record or takes the exception. -/
theorem BlockOutcome.fault {s t : State} (h : BlockOutcome s t) :
    SameFaultRecord s t ∨ TakesPayloadOverrun (fetchOpcode s) s t := by
  cases h with
  | goesOn _ hgo => exact .inl (hgo.same.fault.trans (walkerAdvance_fault _))
  | endsEarly _ hearly => exact .inl hearly.same.fault
  | overruns hover => exact .inr hover

theorem TakesPayloadOverrun.fault {op : Nibble} {s t : State} (h : TakesPayloadOverrun op s t) :
    t.faultOp = op ∧ t.faultX = s.blockX ∧ t.faultY = s.blockY ∧ t.faultDp = s.dp := by
  obtain ⟨hop, hx, hy, hdp, -⟩ := h
  exact ⟨hop, hx, hy, hdp⟩

/-- Settles O55: of all steps but a reset only the exception writes the fault record. -/
theorem faultRecordChangesOnlyOnOverrun : Obligations.FaultRecordChangesOnlyOnOverrun := by
  intro s t hstep hreset
  cases stepOutcome_of_step hstep with
  | quiet hquiet => exact .inl hquiet.fault
  | accepts | refuses => exact .inl (SameFaultRecord.refl s)
  | resets hhost => exact absurd hhost (hreset _)
  | dispatches hbusy hblock =>
    exact hblock.fault.imp_right fun hover =>
      ⟨hbusy, by simp [hover.flags], by simp [hover.flags], hover.flags .busy, hover.fault⟩

/-! ### The completion line -/

/-- Settles O48: `irq` is a function of two bits of `STATUS` (10_state.md R37). -/
theorem irqIsDoneOrFail : Obligations.IrqIsDoneOrFail := by
  intro s s'
  refine ⟨rfl, fun h => ?_⟩
  simp only [State.irq, State.flag, h]

end Sys2Proof.Machine
end

section
/-! PROOF. The registers stay in their widths (10_state.md R22, R26, R29, R34). The bound on `WC` counts dispatches: each
moves the cursor by at most `16 + 7*W`, the end of a block-row by `7*W` more, and a frame has `NBX*NBY` dispatches in `NBY`
rows. -/

namespace Sys2Proof.Machine

/-! ### The size of a legal frame -/

/-- A legal frame in blocks: whole blocks, an even number of columns (10_state.md R24; 00_scope.md R5). -/
theorem State.blocks_of_legal {s : State} (h : s.legal = true) :
    s.w = 8 * s.nbx ∧ s.nbx % 2 = 0 ∧ 2 ≤ s.nbx ∧ s.h = 8 * s.nby ∧ 0 < s.nby := by
  simp only [State.legal, Bool.and_eq_true, bne_iff_ne, beq_iff_eq] at h
  obtain ⟨⟨⟨hw, hw16⟩, hh⟩, hh8⟩ := h
  simp only [State.nbx, State.nby]
  omega

theorem State.nbx_lt (s : State) : s.nbx < 2 ^ 13 := by
  have : s.width.toNat < 2 ^ 16 := s.width.isLt
  simp only [State.nbx, State.w]
  omega

theorem State.nby_lt (s : State) : s.nby < 2 ^ 13 := by
  have : s.height.toNat < 2 ^ 16 := s.height.isLt
  simp only [State.nby, State.h]
  omega

/-- The dispatch number counts below the number of blocks (10_state.md R27). -/
theorem State.dispatchNumber_succ_le {s : State} (hx : s.blockX < s.nbx) (hy : s.blockY < s.nby) :
    s.dispatchNumber + 1 ≤ s.nbx * s.nby :=
  calc s.blockY * s.nbx + s.blockX + 1
    _ ≤ s.blockY * s.nbx + s.nbx := Nat.add_le_add_left hx _
    _ = (s.blockY + 1) * s.nbx := (Nat.succ_mul _ _).symm
    _ ≤ s.nby * s.nbx := Nat.mul_le_mul_right _ hy
    _ = s.nbx * s.nby := Nat.mul_comm _ _

theorem SameOutside.sizes {s t : State} (h : SameOutside s t) :
    t.w = s.w ∧ t.nbx = s.nbx ∧ t.nby = s.nby ∧ t.legal = s.legal := by
  obtain ⟨hw, hh, -⟩ := h.config
  simp only [State.nbx, State.nby, State.legal, State.w, State.h, hw, hh, and_self]

/-! ### How far the cursor can have come -/

/-- The bound of 10_state.md R22 on `WC` after `k` dispatches and `y` ends of a block-row. -/
def State.cursorBound (s : State) (k y : Nat) : Nat := (16 + 7 * s.w) * k + 7 * s.w * y

theorem State.cursorBound_mono (s : State) {k k' y y' : Nat} (hk : k ≤ k') (hy : y ≤ y') :
    s.cursorBound k y ≤ s.cursorBound k' y' :=
  Nat.add_le_add (Nat.mul_le_mul_left _ hk) (Nat.mul_le_mul_left _ hy)

theorem State.cursorBound_dispatch (s : State) (k y : Nat) :
    s.cursorBound (k + 1) y = s.cursorBound k y + (16 + 7 * s.w) := by
  simp only [State.cursorBound]; ring

theorem State.cursorBound_row (s : State) (k y : Nat) : s.cursorBound k (y + 1) = s.cursorBound k y + 7 * s.w := by
  simp only [State.cursorBound]; ring

/-- A whole frame keeps `WC` in its 46 bits (10_state.md R22). -/
theorem State.cursorBound_frame_lt (s : State) : s.cursorBound (s.nbx * s.nby) s.nby < 2 ^ 46 := by
  have hw : s.w ≤ 2 ^ 16 := Nat.le_of_lt s.width.isLt
  have hx : s.nbx ≤ 2 ^ 13 := Nat.le_of_lt s.nbx_lt
  have hy : s.nby ≤ 2 ^ 13 := Nat.le_of_lt s.nby_lt
  calc s.cursorBound (s.nbx * s.nby) s.nby
    _ ≤ (16 + 7 * 2 ^ 16) * (2 ^ 13 * 2 ^ 13) + 7 * 2 ^ 16 * 2 ^ 13 := by unfold State.cursorBound; gcongr
    _ < 2 ^ 46 := by norm_num

/-! ### A frame under way -/

/-- The cursor and the counters are those of a run in progress, or of one just over, with `k` dispatches and the ends of
`BY` block-rows made. -/
structure CountsTo (k : Nat) (s : State) : Prop where
  wc_le : s.wc ≤ s.cursorBound k s.blockY
  wc_mod : s.wc % 8 = 0
  dp_le : s.dp ≤ s.payLen.toNat
  dr_eq : s.dr = s.payRem.toInt - s.dp

theorem RunInBounds.countsTo {s : State} (h : RunInBounds s) (hmod : s.wc % 8 = 0) : CountsTo s.dispatchNumber s := by
  obtain ⟨-, -, -, hwc, hdp, hdr⟩ := h
  exact ⟨hwc, hmod, hdp, hdr⟩

/-- A dispatch moves the cursor by at most `16 + 7*W`, in steps of 8. -/
theorem Completes.wc_bounds {s t : State} (h : Completes s t) (hlegal : s.legal = true) :
    t.wc ≤ s.wc + (16 + 7 * s.w) ∧ (s.wc % 8 = 0 → t.wc % 8 = 0) := by
  obtain ⟨hw, -, hx, -⟩ := State.blocks_of_legal hlegal
  have hwc := h.wc
  have hskip := skip2_wc_cases hx
  omega

/-- A completed dispatch counts one further. -/
theorem CountsTo.completes {k : Nat} {s u : State} (hs : CountsTo k s) (hlegal : s.legal = true)
    (h : Completes s u) : CountsTo (k + 1) u := by
  obtain ⟨hwc, hmod⟩ := h.wc_bounds hlegal
  obtain ⟨n, hn, hdp, hdr⟩ := h.counters
  obtain ⟨-, -, hlen, hrem⟩ := h.same.config
  obtain ⟨-, -, hy, -⟩ := h.same.walker
  have hw : u.w = s.w := h.same.sizes.1
  have hwc_le := hs.wc_le
  have hdp_le := hs.dp_le
  have hdr_eq := hs.dr_eq
  refine ⟨?_, hmod hs.wc_mod, ?_, ?_⟩
  · rw [State.cursorBound_dispatch, hy, hw, show u.cursorBound k s.blockY = s.cursorBound k s.blockY from by
      simp only [State.cursorBound, hw]]
    omega
  · rw [hlen, hdp]
    rcases hn with rfl | hfits
    · exact hdp_le
    · exact hfits
  · rw [hrem, hdr, hdp, hdr_eq]
    push_cast
    ring

/-- The end of a block-row adds `7*W` and moves `BY`. -/
theorem CountsTo.nextRow {k : Nat} {s : State} (hs : CountsTo k s) (hlegal : s.legal = true) :
    CountsTo k { s with wc := s.wc + 7 * s.w, blockX := 0, blockY := s.blockY + 1 } := by
  obtain ⟨hw, -⟩ := State.blocks_of_legal hlegal
  have hmod := hs.wc_mod
  refine ⟨?_, ?_, hs.dp_le, hs.dr_eq⟩
  · show s.wc + 7 * s.w ≤ s.cursorBound k (s.blockY + 1)
    rw [State.cursorBound_row]
    exact Nat.add_le_add_right hs.wc_le _
  · show (s.wc + 7 * s.w) % 8 = 0
    omega

/-- The fault record fits its registers (10_state.md R31). -/
def FaultRecordInWidth (s : State) : Prop := s.faultX < 2 ^ 16 ∧ s.faultY < 2 ^ 16 ∧ s.faultDp < 2 ^ 32

theorem RegistersInWidth.faultRecord {s : State} (h : RegistersInWidth s) : FaultRecordInWidth s := by
  obtain ⟨-, -, -, -, -, -, -, hfault⟩ := h
  exact hfault

theorem SameFaultRecord.inWidth {s t : State} (h : SameFaultRecord s t) (hs : FaultRecordInWidth s) :
    FaultRecordInWidth t := by
  obtain ⟨-, hx, hy, hdp⟩ := h
  simpa only [FaultRecordInWidth, hx, hy, hdp] using hs

/-- Inside the frame the registers are in their widths. -/
theorem CountsTo.registersInWidth {k : Nat} {s : State} (hs : CountsTo k s) (hk : k ≤ s.nbx * s.nby)
    (hx : s.blockX ≤ s.nbx) (hy : s.blockY ≤ s.nby) (hfault : FaultRecordInWidth s) : RegistersInWidth s := by
  have hwc : s.wc < 2 ^ 46 :=
    Nat.lt_of_le_of_lt (hs.wc_le.trans (s.cursorBound_mono hk hy)) s.cursorBound_frame_lt
  have hdp := hs.dp_le
  have hdr := hs.dr_eq
  have hlen : s.payLen.toNat < 2 ^ 32 := s.payLen.isLt
  have hlow : -2 ^ 31 ≤ s.payRem.toInt := s.payRem.le_toInt
  have hhigh : s.payRem.toInt < 2 ^ 31 := s.payRem.toInt_lt
  have hnbx := s.nbx_lt
  have hnby := s.nby_lt
  refine ⟨hwc, hs.wc_mod, ?_, ?_, ?_, ?_, ?_, hfault⟩
  all_goals omega

/-! ### One block keeps the registers -/

/-- After a completed dispatch the walker's advance keeps the registers in their widths and a run that goes on in bounds. -/
theorem CountsTo.walkerAdvance {s : State} (hs : CountsTo (s.dispatchNumber + 1) s) (hlegal : s.legal = true)
    (hx : s.blockX < s.nbx) (hy : s.blockY < s.nby) (hfault : FaultRecordInWidth s) :
    RegistersSound (walkerAdvance s) := by
  have hk := State.dispatchNumber_succ_le hx hy
  have hrow := hs.nextRow hlegal
  have hcount : s.blockX + 1 = s.nbx → s.dispatchNumber + 1 = (s.blockY + 1) * s.nbx + 0 := fun h => by
    rw [State.dispatchNumber, Nat.succ_mul, ← h]
    rfl
  rcases walkerAdvance_cases s with ⟨hne, h⟩ | ⟨hend, hne, h⟩ | ⟨hend, hlast, h⟩ <;> rw [h]
  · have hnext : CountsTo (s.dispatchNumber + 1) { s with blockX := s.blockX + 1 } :=
      ⟨hs.wc_le, hs.wc_mod, hs.dp_le, hs.dr_eq⟩
    exact ⟨hnext.registersInWidth hk hx (Nat.le_of_lt hy) hfault,
      fun _ => ⟨hlegal, Nat.lt_of_le_of_ne hx hne, hy, hnext.wc_le, hnext.dp_le, hnext.dr_eq⟩⟩
  · refine ⟨hrow.registersInWidth hk (Nat.zero_le _) hy hfault,
      fun _ => ⟨hlegal, Nat.zero_lt_of_lt hx, Nat.lt_of_le_of_ne hy hne, ?_, hrow.dp_le, hrow.dr_eq⟩⟩
    have hwc := hrow.wc_le
    rw [hcount hend] at hwc
    exact hwc
  · have hover : CountsTo (s.dispatchNumber + 1)
        (endNormal { s with wc := s.wc + 7 * s.w, blockX := 0, blockY := s.blockY + 1 }) :=
      ⟨hrow.wc_le, hrow.wc_mod, hrow.dp_le, hrow.dr_eq⟩
    refine ⟨hover.registersInWidth hk (Nat.zero_le _) hy hfault, fun hbusy => ?_⟩
    rw [flag_endNormal] at hbusy
    simp at hbusy

/-- What a completed dispatch hands to the walker: the count one up, in the same block of the same frame. -/
theorem RegistersSound.completes {s u : State} (hs : RegistersSound s) (hbusy : s.flag .busy = true)
    (h : Completes s u) :
    CountsTo (u.dispatchNumber + 1) u ∧ u.legal = true ∧ u.blockX < u.nbx ∧ u.blockY < u.nby
      ∧ FaultRecordInWidth u := by
  obtain ⟨hwidth, hrun⟩ := hs
  have hfault := h.same.fault.inWidth hwidth.faultRecord
  obtain ⟨-, hmod, -⟩ := hwidth
  obtain ⟨hlegal, hx, hy, -⟩ := hrun hbusy
  obtain ⟨-, hux, huy, -⟩ := h.same.walker
  obtain ⟨-, hnx, hny, hul⟩ := h.same.sizes
  have hnum : u.dispatchNumber = s.dispatchNumber := by simp only [State.dispatchNumber, hux, huy, hnx]
  rw [hnum, hul, hux, huy, hnx, hny]
  exact ⟨((hrun hbusy).countsTo hmod).completes hlegal h, hlegal, hx, hy, hfault⟩

theorem TakesPayloadOverrun.registersInWidth {op : Nibble} {s t : State} (h : TakesPayloadOverrun op s t)
    (hs : RegistersInWidth s) : RegistersInWidth t := by
  obtain ⟨-, hfx, hfy, hfdp, -, hwc, hdp, hdr, hx, hy, -⟩ := h
  obtain ⟨hwc', hmod, hx', hy', hdp', hlow, hhigh, -⟩ := hs
  unfold RegistersInWidth
  rw [hfx, hfy, hfdp, hwc, hdp, hdr, hx, hy]
  exact ⟨hwc', hmod, hx', hy', hdp', hlow, hhigh, hx', hy', hdp'⟩

theorem BlockOutcome.registersSound {s t : State} (h : BlockOutcome s t) (hs : RegistersSound s)
    (hbusy : s.flag .busy = true) : RegistersSound t := by
  cases h with
  | goesOn hcomp _ =>
    obtain ⟨hcount, hlegal, hx, hy, hfault⟩ := hs.completes hbusy hcomp
    exact hcount.walkerAdvance hlegal hx hy hfault
  | endsEarly hcomp hearly =>
    obtain ⟨hcount, -, hx, hy, hfault⟩ := hs.completes hbusy hcomp
    refine ⟨hcount.registersInWidth (State.dispatchNumber_succ_le hx hy) (Nat.le_of_lt hx) (Nat.le_of_lt hy) hfault,
      fun hb => ?_⟩
    cases (hearly.flags .busy rfl).symm.trans hb
  | overruns hover =>
    refine ⟨hover.registersInWidth hs.1, fun hb => ?_⟩
    cases (hover.flags .busy).symm.trans hb

/-! ### The other steps -/

theorem QuietTurn.registersSound {s t : State} (h : QuietTurn s t) (hs : RegistersSound s) : RegistersSound t := by
  obtain ⟨hwc, hx, hy⟩ := h.cursor
  obtain ⟨hdp, hdr⟩ := h.counters
  obtain ⟨-, hfx, hfy, hfdp⟩ := h.fault
  refine ⟨by simpa only [RegistersInWidth, hwc, hx, hy, hdp, hdr, hfx, hfy, hfdp] using hs.1, fun hb => ?_⟩
  have hbusy : s.flag .busy = true := (h.flag .busy).symm.trans hb
  obtain ⟨hw, hh, hlen, hrem⟩ := h.config hbusy
  simpa only [RunInBounds, State.legal, State.dispatchNumber, State.nbx, State.nby, State.w, State.h, hw, hh, hlen, hrem,
    hwc, hx, hy, hdp, hdr] using hs.2 hbusy

/-- An accepted `START` begins a run at the first block (40_walker_dispatch.md R120; 10_state.md R29, R39). -/
theorem registersSound_acceptStart {s : State} (hlegal : s.legal = true) (hfault : FaultRecordInWidth s) :
    RegistersSound (acceptStart s) := by
  obtain ⟨hx, hy⟩ := State.blocks_pos_of_legal hlegal
  have hcount : CountsTo 0 (acceptStart s) := ⟨Nat.zero_le _, rfl, Nat.zero_le _, (Int.sub_zero _).symm⟩
  exact ⟨hcount.registersInWidth (Nat.zero_le _) (Nat.zero_le _) (Nat.zero_le _) hfault,
    fun _ => ⟨hlegal, hx, hy, Nat.zero_le _, hcount.dp_le, hcount.dr_eq⟩⟩

theorem registersSound_refuseStart {s : State} (hs : RegistersInWidth s) : RegistersSound (refuseStart s) := by
  refine ⟨hs, fun hb => ?_⟩
  rw [flag_refuseStart] at hb
  cases hb

theorem registersSound_reset : RegistersSound State.reset := by
  refine ⟨by unfold RegistersInWidth; decide, fun hb => ?_⟩
  rw [flag_reset] at hb
  cases hb

theorem registersSound_hardReset (s : State) : RegistersSound (hardReset s) := registersSound_reset

/-- Settles O51: a quiet turn changes no working register, a `START` and a reset put them at 0, and a dispatch moves them
within the bound of its number. -/
theorem everyStepKeepsTheRegistersInTheirWidths : Obligations.EveryStepKeepsTheRegistersInTheirWidths := by
  intro s t hs hstep
  cases stepOutcome_of_step hstep with
  | quiet hquiet => exact hquiet.registersSound hs
  | accepts _ _ hlegal => exact registersSound_acceptStart hlegal hs.1.faultRecord
  | refuses => exact registersSound_refuseStart hs.1
  | resets => exact registersSound_hardReset _
  | dispatches hbusy hblock => exact hblock.registersSound hs hbusy

/-! ### The state after reset -/

/-- Settles O47: the reset values of 10_state.md R38, field by field. -/
theorem resetStateHasTheResetValues : Obligations.ResetStateHasTheResetValues :=
  ⟨rfl, rfl, rfl, rfl, rfl, rfl, rfl, rfl, rfl, rfl, rfl, rfl, rfl, rfl, rfl, rfl, by simp [State.irq, flag_reset], rfl⟩

/-- Settles O56: nothing is listed in the memories, the registers are 0, and no flag is set. -/
theorem resetSatisfiesTheInvariants : Obligations.ResetSatisfiesTheInvariants :=
  ⟨⟨Memory.wf_nil, Memory.wf_nil, Memory.wf_nil, Memory.wf_nil⟩, registersSound_reset, statusConsistent_reset⟩

end Sys2Proof.Machine
end

section
/-! PROOF. The register port (10_state.md R21, R23, R40): writes of the configuration, reads while idle and while busy. -/

namespace Sys2Proof.Machine

theorem step_of_writeReg {s : State} {n : Nat} {v : BitVec 64} {rest : List HostTurn}
    (h : s.host = .writeReg n v :: rest) : step s = .next (writeRegister n v { s with host := rest }) := by
  simp only [step, turn, h]

theorem step_of_readReg {s : State} {n : Nat} {rest : List HostTurn} (h : s.host = .readReg n :: rest) :
    step s = .next (readRegister n { s with host := rest }) := by
  simp only [step, turn, h]

/-- Settles O42: only an idle decoder takes a configuration write, and registers 5 and up take none. -/
theorem configurationWritesTakeEffectWhileIdle : Obligations.ConfigurationWritesTakeEffectWhileIdle := by
  intro s n v turns hhost
  rw [step_of_writeReg hhost]
  refine ⟨fun hn hbusy => ?_, fun hn => ?_, fun hidle => ⟨?_, ?_, ?_, ?_⟩⟩
  · exact congrArg Host.Outcome.next (writeRegister_of_busy v hn hbusy)
  · exact congrArg Host.Outcome.next (writeRegister_of_readOnly _ v hn)
  all_goals
    rintro rfl
    exact congrArg Host.Outcome.next (if_neg (ne_true_of_eq_false hidle))

/-! ### The values a read gives -/

/-- A counter read at a port of `w` bits, zeros above them, is the counter while it fits. -/
theorem toNat_counter {w k : Nat} (hw : w ≤ 64) (hk : k < 2 ^ w) : ((BitVec.ofNat w k).setWidth 64).toNat = k := by
  rw [BitVec.toNat_setWidth_of_le hw, BitVec.toNat_ofNat, Nat.mod_eq_of_lt hk]

theorem toInt_counter {k : Int} (hlow : -2 ^ 63 ≤ k) (hhigh : k < 2 ^ 63) : (BitVec.ofInt 64 k).toInt = k := by
  rw [BitVec.toInt_ofInt, Int.bmod_def]
  omega

/-- A number above 14 is no register and reads 0 (10_state.md R21). -/
theorem registerValue_of_unlisted (s : State) {n : Nat} (hn : 15 ≤ n) : registerValue n s = 0 := by
  unfold registerValue
  split
  case h_15 => rfl
  all_goals omega

theorem readRegister_of_idle (n : Nat) {s : State} (hidle : s.flag .busy = false) :
    readRegister n s = { s with readData := registerValue n s } :=
  if_neg (ne_true_of_eq_false hidle)

/-- Settles O43: an idle read puts the register's value into `readData`, register by register. -/
theorem registerReadsGiveTheValuesWhileIdle : Obligations.RegisterReadsGiveTheValuesWhileIdle := by
  intro s n turns hhost hidle
  rw [step_of_readReg hhost]
  refine ⟨registerValue n s, congrArg Host.Outcome.next (readRegister_of_idle n hidle), ?_⟩
  refine ⟨?width, ?height, ?payLen, ?payRem, ?ctrl, ?status, ?wc, ?blockX, ?blockY, ?dp, ?dr, ?faultOp, ?faultX, ?faultY,
    ?faultDp, registerValue_of_unlisted s⟩ <;> rintro rfl
  case ctrl => rfl
  case wc => exact fun hk => (BitVec.toNat_ofNat _ _).trans (Nat.mod_eq_of_lt hk)
  case dr => exact toInt_counter
  case blockX | blockY | dp | faultX | faultY | faultDp => exact toNat_counter (by decide)
  case width | height | payLen | payRem | status | faultOp => exact BitVec.toNat_setWidth_of_le (by decide)

/-! ### Reads while busy -/

/-- A read of `STATUS` or of a working register while busy is a draw of its width beside its fixed bits
(93_implementation_defined.md U2). -/
theorem readRegister_of_busyOpen {n w : Nat} {fixed : BitVec 64} {s : State} (hbusy : s.flag .busy = true)
    (h : busyOpen n = some (w, fixed)) :
    readRegister n s = { s with
      readData := ((Config.busyRead s.draws).setWidth w).setWidth 64 ||| fixed, draws := s.draws + 1 } := by
  simp only [readRegister, hbusy, h, if_true]

theorem readRegister_of_busyClosed {n : Nat} {s : State} (hbusy : s.flag .busy = true) (h : busyOpen n = none) :
    readRegister n s = { s with readData := registerValue n s } := by
  simp only [readRegister, hbusy, h, if_true]

/-- The registers that are open while busy are 5 to 10 (10_state.md R40). -/
theorem busyOpen_eq_none_iff (n : Nat) : busyOpen n = none ↔ n < 5 ∨ 11 ≤ n := by
  unfold busyOpen
  split
  case h_7 =>
    simp only [imp_false] at *
    exact iff_of_true trivial (by omega)
  all_goals exact iff_of_false nofun (by decide)

/-- What is drawn for an open register lies within its bits. -/
theorem toNat_draw_lt {w : Nat} (hw : w ≤ 64) (x fixed : BitVec 64) (hfixed : fixed.toNat < 2 ^ w) :
    ((x.setWidth w).setWidth 64 ||| fixed).toNat < 2 ^ w := by
  rw [BitVec.toNat_or, BitVec.toNat_setWidth_of_le hw]
  exact Nat.or_lt_two_pow (x.setWidth w).isLt hfixed

/-- Settles O44: a busy read is a draw for registers 5 to 10 and the value for the others. -/
theorem busyReadsOfStatusShowBusy : Obligations.BusyReadsOfStatusShowBusy := by
  intro s n turns hhost hbusy
  rw [step_of_readReg hhost]
  cases hopen : busyOpen n with
  | none =>
    have hn := (busyOpen_eq_none_iff n).mp hopen
    refine ⟨registerValue n s, s.draws, congrArg Host.Outcome.next (readRegister_of_busyClosed hbusy hopen), ?_⟩
    refine ⟨by omega, by omega, by omega, by omega, fun _ => rfl, ?_, ?_⟩ <;> rintro rfl
    · exact BitVec.toNat_setWidth_of_le (by decide)
    · exact BitVec.toNat_setWidth_of_le (by decide)
  | some o =>
    obtain ⟨w, fixed⟩ := o
    have hn : ¬ (n < 5 ∨ 11 ≤ n) := fun h => by simp [(busyOpen_eq_none_iff n).mpr h] at hopen
    refine ⟨_, s.draws + 1, congrArg Host.Outcome.next (readRegister_of_busyOpen hbusy hopen), ?_⟩
    refine ⟨?_, ?_, ?_, fun _ _ => rfl, fun h => absurd h hn, by omega, by omega⟩
    · rintro rfl
      cases hopen
      exact ⟨by simp, toNat_draw_lt (by decide) _ _ (by decide)⟩
    · rintro (rfl | rfl) <;> cases hopen <;> exact toNat_draw_lt (by decide) _ _ (by decide)
    · rintro rfl
      cases hopen
      exact toNat_draw_lt (by decide) _ _ (by decide)

end Sys2Proof.Machine
end

section
/-! PROOF. A run without opcode 0x6 stays on the grid (10_state.md R34). On the grid the whole block lies inside the frame,
and every body writes inside the block only, so that no write is suppressed. -/

namespace Sys2Proof.Machine

/-! ### The writes of a body lie in its block -/

/-- Every write of the list names a pixel of the block at `WC`. -/
def InBlock (s : State) (ws : List (Nat × Byte)) : Prop :=
  ∀ p ∈ ws, ∃ r < 8, ∃ c < 8, p.1 = s.pixelIndex r c

theorem InBlock.append {s : State} {ws ws' : List (Nat × Byte)} (h : InBlock s ws) (h' : InBlock s ws') :
    InBlock s (ws ++ ws') := fun p hp => (List.mem_append.mp hp).elim (h p) (h' p)

theorem InBlock.flatMap {α : Type} {s : State} {l : List α} {f : α → List (Nat × Byte)} (h : ∀ x ∈ l, InBlock s (f x)) :
    InBlock s (l.flatMap f) := fun p hp => by
  obtain ⟨x, hx, hpx⟩ := List.mem_flatMap.mp hp
  exact h x hx p hpx

theorem InBlock.map {α : Type} {s : State} {l : List α} {f : α → Nat × Byte}
    (h : ∀ x ∈ l, ∃ r < 8, ∃ c < 8, (f x).1 = s.pixelIndex r c) : InBlock s (l.map f) := fun p hp => by
  obtain ⟨x, hx, rfl⟩ := List.mem_map.mp hp
  exact h x hx

/-- A pixel `i` rows below and `j` columns right of pixel `(r, c)`. -/
theorem State.pixelIndex_add (s : State) (r c i j : Nat) :
    s.pixelIndex r c + i * s.w + j = s.pixelIndex (r + i) (c + j) := by
  simp only [State.pixelIndex]; ring

/-- A unit whose top left pixel is `(r, c)` and which fits the block (41_pattern_unpacker.md R153). -/
theorem inBlock_fillUnit {s : State} {a r c uw uh : Nat} {v : Byte} (ha : a = s.pixelIndex r c) (hr : r + uh ≤ 8)
    (hc : c + uw ≤ 8) : InBlock s (fillUnit s.w a uw uh v) := by
  refine .flatMap fun i hi => .map fun j hj => ?_
  rw [List.mem_range] at hi hj
  exact ⟨r + i, by omega, c + j, by omega, by rw [ha, State.pixelIndex_add]⟩

/-- A run of units from pixel `(r, c)` on that fits the block (41_pattern_unpacker.md R154). -/
theorem inBlock_runUnits {s : State} {b a m uw uh n r c : Nat} {col : BitVec n → Byte} {word : BitVec b}
    (ha : a = s.pixelIndex r c) (hr : r + uh ≤ 8) (hc : c + m * uw ≤ 8) :
    InBlock s (runUnits s.w a m uw uh n col word) := by
  refine .flatMap fun k hk => ?_
  rw [List.mem_range] at hk
  have hfit : (k + 1) * uw ≤ m * uw := Nat.mul_le_mul_right _ hk
  rw [Nat.succ_mul] at hfit
  exact inBlock_fillUnit (r := r) (c := c + k * uw) (by rw [ha]; simp only [State.pixelIndex]; ring) hr (by omega)

theorem inBlock_pu1x1 {s : State} {b a m n r c : Nat} {col : BitVec n → Byte} {word : BitVec b}
    (ha : a = s.pixelIndex r c) (hr : r < 8) (hc : c + m ≤ 8) : InBlock s (pu1x1 s.w a m n col word) :=
  inBlock_runUnits ha hr (by omega)

theorem inBlock_pu2x1 {s : State} {b a n r : Nat} {col : BitVec n → Byte} {word : BitVec b}
    (ha : a = s.pixelIndex r 0) (hr : r < 8) : InBlock s (pu2x1 s.w a n col word) :=
  inBlock_runUnits ha hr (by decide)

theorem inBlock_pu1x2 {s : State} {b a n r : Nat} {col : BitVec n → Byte} {word : BitVec b}
    (ha : a = s.pixelIndex r 0) (hr : r + 2 ≤ 8) : InBlock s (pu1x2 s.w a n col word) :=
  inBlock_runUnits ha hr (by decide)

theorem inBlock_pu2x2 {s : State} {b a n r : Nat} {col : BitVec n → Byte} {word : BitVec b}
    (ha : a = s.pixelIndex r 0) (hr : r + 2 ≤ 8) : InBlock s (pu2x2 s.w a n col word) :=
  inBlock_runUnits ha hr (by decide)

/-- A quadrant with its top left pixel at `(r, c)` (41_pattern_unpacker.md R159). -/
theorem inBlock_quadUnit {s : State} {b a n r c : Nat} {col : BitVec n → Byte} {word : BitVec b}
    (ha : a = s.pixelIndex r c) (hr : r + 4 ≤ 8) (hc : c + 4 ≤ 8) : InBlock s (quadUnit s.w a n col word) := by
  refine .flatMap fun i hi => ?_
  rw [List.mem_range] at hi
  exact inBlock_pu1x1 (r := r + i) (c := c) (by rw [ha]; simp only [State.pixelIndex]; ring) (by omega) hc

/-! ### No write is suppressed where the block lies inside the frame -/

/-- Every pixel of the block at `WC` is in the buffer. -/
def BlockInFrame (s : State) : Prop := ∀ r < 8, ∀ c < 8, s.pixelIndex r c < s.frame

/-- The body suppresses no write where the block lies inside the frame. -/
def WritesInBlock (execute : State → State) : Prop :=
  ∀ u, BlockInFrame u → (execute u).wrOob = u.wrOob

theorem writesInBlock_curWrites {ws : State → List (Nat × Byte)} (h : ∀ u, InBlock u (ws u)) :
    WritesInBlock fun u => curWrites (ws u) u := by
  intro u hu
  have hnone : ((ws u).any fun p => decide (u.frame ≤ p.1)) = false := by
    refine List.any_eq_false.mpr fun p hp => ?_
    obtain ⟨r, hr, c, hc, hpix⟩ := h u p hp
    have := hu r hr c hc
    simp only [decide_eq_true_eq]
    omega
  show (curWrites (ws u) u).wrOob = u.wrOob
  rw [curWrites_wrOob, hnone, Bool.or_false]

theorem blockPixels_lt {p : Nat × Nat} (hp : p ∈ blockPixels) : p.1 < 8 ∧ p.2 < 8 := by
  revert p; decide

theorem copyByte_pixelIndex (src : State → Int → Option Byte) (off : Int) (r c r' c' : Nat) (s : State) :
    (copyByte src off r c s).pixelIndex r' c' = s.pixelIndex r' c' := by
  rw [copyByte_eq]; rfl

theorem copyByte_frame (src : State → Int → Option Byte) (off : Int) (r c : Nat) (s : State) :
    (copyByte src off r c s).frame = s.frame := by
  rw [copyByte_eq]; rfl

theorem copyByte_wrOob {src : State → Int → Option Byte} {off : Int} {r c : Nat} {s : State}
    (h : s.pixelIndex r c < s.frame) : (copyByte src off r c s).wrOob = s.wrOob := by
  unfold copyByte
  split
  · rw [curWrite_wrOob, decide_eq_false (Nat.not_le.mpr h), Bool.or_false]
  · rfl

theorem writesInBlock_blockCopy (src : State → Int → Option Byte) (off : State → Int) :
    WritesInBlock fun u => blockCopy src (off u) u := by
  suffices ∀ (o : Int) (ps : List (Nat × Nat)) (u : State), (∀ p ∈ ps, u.pixelIndex p.1 p.2 < u.frame) →
      (ps.foldl (fun t p => copyByte src o p.1 p.2 t) u).wrOob = u.wrOob by
    intro u hu
    refine this (off u) blockPixels u fun p hp => ?_
    obtain ⟨hr, hc⟩ := blockPixels_lt hp
    exact hu _ hr _ hc
  intro o ps
  induction ps with
  | nil => exact fun u _ => rfl
  | cons p ps ih =>
    intro u hu
    rw [List.foldl_cons, ih, copyByte_wrOob (hu p List.mem_cons_self)]
    intro q hq
    rw [copyByte_pixelIndex, copyByte_frame]
    exact hu q (List.mem_cons_of_mem p hq)

/-! ### The instructions -/

/-- The meaning is the dispatch of the form around a body that changes `CUR` and the latches only and, where the block lies
inside the frame, suppresses no write. -/
def RunsInBlock (f : Form) (meaning : State → Host.Outcome State Fault Refusal) : Prop :=
  ∃ execute, TouchesPixelsOnly execute ∧ WritesInBlock execute ∧ ∀ s, meaning s = dispatch f execute s

theorem runsInBlock_of_copy {f : Form} {meaning : State → Host.Outcome State Fault Refusal}
    {src : State → Int → Option Byte} {off : State → Int}
    (h : ∀ s, meaning s = dispatch f (fun u => blockCopy src (off u) u) s) : RunsInBlock f meaning :=
  ⟨_, touchesPixelsOnly_blockCopy src off, writesInBlock_blockCopy src off, h⟩

theorem runsInBlock_of_writes {f : Form} {meaning : State → Host.Outcome State Fault Refusal}
    {ws : State → List (Nat × Byte)} (h : ∀ s, meaning s = dispatch f (fun u => curWrites (ws u) u) s)
    (hws : ∀ u, InBlock u (ws u)) : RunsInBlock f meaning :=
  ⟨_, touchesPixelsOnly_curWrites ws, writesInBlock_curWrites hws, h⟩

theorem State.wc_eq_pixelIndex (s : State) : s.wc = s.pixelIndex 0 0 := by simp [State.pixelIndex]

theorem State.wc_add_eq_pixelIndex (s : State) (c : Nat) : s.wc + c = s.pixelIndex 0 c := by simp [State.pixelIndex]

/-- Left and right half, two quadrants each (44_two_colour_ops.md R204, 45_four_colour_ops.md R226). -/
theorem inBlock_halves {s : State} {n b : Nat} {col col' : BitVec n → Byte} {w1 w2 w3 w4 : BitVec b} :
    InBlock s (quadUnit s.w s.wc n col w1 ++ quadUnit s.w (s.wc + 4 * s.w) n col w2
      ++ quadUnit s.w (s.wc + 4) n col' w3 ++ quadUnit s.w (s.wc + 4 * s.w + 4) n col' w4) :=
  (((inBlock_quadUnit s.wc_eq_pixelIndex (by decide) (by decide)).append
    (inBlock_quadUnit (r := 4) (c := 0) rfl (by decide) (by decide))).append
    (inBlock_quadUnit (s.wc_add_eq_pixelIndex 4) (by decide) (by decide))).append
    (inBlock_quadUnit (r := 4) (c := 4) rfl (by decide) (by decide))

/-- Every instruction but `SKIP2` writes inside its block only. -/
theorem exec_runsInBlock (i : Instr) (hi : i ≠ .skip2) : RunsInBlock i.form (exec i) := by
  unfold RunsInBlock
  cases i
  all_goals simp only [exec, Instr.form]
  case skip2 => exact absurd rfl hi
  case keep => exact ⟨_, touchesPixelsOnly_id, fun _ _ => rfl, fun _ => rfl⟩
  case cph => exact runsInBlock_of_copy (off := fun _ => 0) fun _ => rfl
  case cpcf | cpcb | cphn | cphw =>
    exact runsInBlock_of_copy (off := fun u => displacement u _ _) fun _ => rfl
  case pat2Row | pat4U1x1 =>
    exact runsInBlock_of_writes (fun _ => rfl) fun u => .flatMap fun r _ =>
      inBlock_pu1x1 (c := 0) rfl r.isLt (by decide)
  case pat4U2x1 =>
    exact runsInBlock_of_writes (fun _ => rfl) fun u => .flatMap fun r _ => inBlock_pu2x1 rfl r.isLt
  case pat2Cell =>
    refine runsInBlock_of_writes (fun _ => rfl) fun u => .flatMap fun q hq => ?_
    rw [List.mem_range] at hq
    exact inBlock_pu2x2 (r := 2 * q) rfl (by omega)
  case pat4U2x2 =>
    exact runsInBlock_of_writes (fun _ => rfl) fun u => .flatMap fun q _ => inBlock_pu2x2 (r := 2 * q) rfl (by omega)
  case pat4U1x2 =>
    exact runsInBlock_of_writes (fun _ => rfl) fun u => .flatMap fun q _ => inBlock_pu1x2 (r := 2 * q) rfl (by omega)
  case pat2qQuad | pat4qQuad =>
    refine runsInBlock_of_writes (fun _ => rfl) fun u => .flatMap fun q _ => ?_
    exact inBlock_quadUnit (r := 4 * (q % 2)) (c := 4 * (q / 2)) rfl (by omega) (by omega)
  case pat2qLr | pat4qLr => exact runsInBlock_of_writes (fun _ => rfl) fun u => inBlock_halves
  case pat2qTb | pat4qTb =>
    refine runsInBlock_of_writes (fun _ => rfl) fun u =>
      .append (.flatMap fun r _ => ?_) (.flatMap fun r _ => ?_)
    · exact inBlock_pu1x1 (r := r) (c := 0) rfl (by omega) (by decide)
    · exact inBlock_pu1x1 (r := 4 + r) (c := 0) rfl (by omega) (by decide)
  case raw =>
    exact runsInBlock_of_writes (fun _ => rfl) fun u => .flatMap fun r _ => .map fun c _ =>
      ⟨r, r.isLt, c, c.isLt, rfl⟩
  case raw2 =>
    refine runsInBlock_of_writes (fun _ => rfl) fun u => .flatMap fun p _ => .flatMap fun q _ => ?_
    exact inBlock_fillUnit (r := 2 * p) (c := 2 * q) rfl (by omega) (by omega)
  case raw4 =>
    refine runsInBlock_of_writes (fun _ => rfl) fun u => .flatMap fun b _ => .append ?_ ?_
    · exact inBlock_fillUnit (r := 4 * b) (c := 0) rfl (by omega) (by decide)
    · exact inBlock_fillUnit (r := 4 * b) (c := 4) rfl (by omega) (by decide)
  case fill =>
    exact runsInBlock_of_writes (fun _ => rfl) fun u =>
      inBlock_fillUnit u.wc_eq_pixelIndex (by decide) (by decide)
  case dith =>
    refine runsInBlock_of_writes (fun _ => rfl) fun u => .map fun p hp => ?_
    obtain ⟨hr, hc⟩ := blockPixels_lt hp
    exact ⟨p.1, hr, p.2, hc, rfl⟩

/-! ### On the grid -/

/-- On the grid the block lies inside the frame, and the common advance keeps `WC` below `FRAME`, so that the check of
60_exceptions.md R268 passes. -/
theorem blockInFrame_of_onTheGrid {s : State} (hrun : RunInBounds s) (hgrid : OnTheGrid s) :
    BlockInFrame s ∧ s.wc + 8 < s.frame := by
  obtain ⟨hlegal, hx, hy, -⟩ := hrun
  obtain ⟨hw, -, hcols, hh, -⟩ := State.blocks_of_legal hlegal
  have hrows : (s.blockY + 1) * (8 * s.w) ≤ s.frame :=
    calc (s.blockY + 1) * (8 * s.w)
      _ ≤ s.nby * (8 * s.w) := Nat.mul_le_mul_right _ hy
      _ = s.frame := by rw [State.frame, hh]; ring
  rw [Nat.succ_mul] at hrows
  unfold OnTheGrid at hgrid
  refine ⟨fun r hr c hc => ?_, by omega⟩
  have hrow : r * s.w ≤ 7 * s.w := Nat.mul_le_mul_right _ (Nat.le_of_lt_succ hr)
  simp only [State.pixelIndex]
  omega

/-- A completed dispatch on the grid: the cursor moves by one block and neither bound is hit. -/
structure CleanDispatch (s t : State) : Prop where
  goesOn : GoesOn s t
  wc : t.wc = s.wc + 8
  wrOob : t.flag .wrOob = s.flag .wrOob
  wcOob : t.flag .wcOob = s.flag .wcOob

theorem CleanDispatch.busy {s t : State} (h : CleanDispatch s t) (hbusy : s.flag .busy = true) : t.flag .busy = true :=
  (h.goesOn.flags _ rfl).trans hbusy

theorem exec_clean_or_overruns {i : Instr} {s t : State} (hi : i ≠ .skip2) (hrun : RunInBounds s) (hgrid : OnTheGrid s)
    (h : exec i s = .next t) : CleanDispatch s t ∨ TakesPayloadOverrun i.form.opcode.nibble s t := by
  obtain ⟨hblock, hnext⟩ := blockInFrame_of_onTheGrid hrun hgrid
  obtain ⟨execute, hbody, hwrites, hexec⟩ := exec_runsInBlock i hi
  by_cases hfits : i.form.length = 0 ∨ s.fits i.form.length
  · obtain ⟨t', ht', hadv, -, hwr, -⟩ := dispatch_advances i.form execute s hbody hfits
    obtain rfl : t = t' := Host.Outcome.next.inj ((h.symm.trans (hexec s)).trans ht')
    have hlatch : t.wrOob = false := hwr.trans (hwrites (clearLatches s) hblock)
    have hgo := hadv.goesOn
    obtain ⟨hwc, -, -, hflag, -⟩ := hadv
    refine .inl ⟨hgo, hwc, ?_, ?_⟩
    · rw [hflag, raisedBy, hlatch, Bool.or_false]
    · rw [hflag, raisedBy, hwc, decide_eq_false (Nat.not_le.mpr hnext), Bool.or_false]
  · obtain ⟨hlen, hcut⟩ := not_or.mp hfits
    obtain ⟨t', ht', hover⟩ := dispatch_overruns i.form execute s (Nat.pos_of_ne_zero hlen) hcut
    obtain rfl : t = t' := Host.Outcome.next.inj ((h.symm.trans (hexec s)).trans ht')
    exact .inr hover

/-- The walker's advance touches neither bound's flag. -/
theorem walkerAdvance_boundFlags (s : State) :
    (walkerAdvance s).flag .wrOob = s.flag .wrOob ∧ (walkerAdvance s).flag .wcOob = s.flag .wcOob := by
  rcases flag_walkerAdvance s with h | h
  · exact ⟨h _, h _⟩
  · rw [h, h]
    exact ⟨by cases s.flag .wrOob <;> rfl, by cases s.flag .wcOob <;> rfl⟩

/-- The walker's advance after a clean dispatch goes to the next place of the grid or ends the frame at `WC = FRAME`. -/
theorem CleanDispatch.walkerAdvance {s t : State} (h : CleanDispatch s t) (hrun : RunInBounds s) (hgrid : OnTheGrid s)
    (hbusy : s.flag .busy = true) :
    OnTheGrid (walkerAdvance t)
      ∧ ((walkerAdvance t).flag .busy = false →
        (walkerAdvance t).wc = s.frame ∧ (walkerAdvance t).blockX = 0 ∧ (walkerAdvance t).blockY = s.nby) := by
  obtain ⟨hlegal, -⟩ := hrun
  obtain ⟨hw, -, -, hh, -⟩ := State.blocks_of_legal hlegal
  obtain ⟨hsw, hnx, hny, -⟩ := h.goesOn.same.sizes
  obtain ⟨-, hx, hy, -⟩ := h.goesOn.same.walker
  have htbusy := h.busy hbusy
  have hwc := h.wc
  unfold OnTheGrid at hgrid
  have hrow : t.blockX + 1 = t.nbx → t.wc + 7 * t.w = (t.blockY + 1) * (8 * t.w) := fun hend => by
    rw [hx, hnx] at hend
    rw [hsw, hy, Nat.succ_mul s.blockY]
    omega
  rcases walkerAdvance_cases t with ⟨-, hadv⟩ | ⟨hend, -, hadv⟩ | ⟨hend, hlast, hadv⟩ <;> rw [hadv]
  · refine ⟨?_, fun hidle => nomatch htbusy.symm.trans hidle⟩
    show t.wc = t.blockY * (8 * t.w) + (t.blockX + 1) * 8
    rw [hsw, hx, hy]
    omega
  · refine ⟨?_, fun hidle => nomatch htbusy.symm.trans hidle⟩
    show t.wc + 7 * t.w = (t.blockY + 1) * (8 * t.w) + 0 * 8
    rw [hrow hend]
    rfl
  · refine ⟨?_, fun _ => ⟨?_, rfl, hlast.trans hny⟩⟩
    · show t.wc + 7 * t.w = (t.blockY + 1) * (8 * t.w) + 0 * 8
      rw [hrow hend]
      rfl
    · show t.wc + 7 * t.w = s.frame
      rw [hrow hend, hlast, hny, hsw, State.frame, hh]
      ring

theorem TakesPayloadOverrun.boundFlags {op : Nibble} {s t : State} (h : TakesPayloadOverrun op s t) :
    t.flag .wrOob = s.flag .wrOob ∧ t.flag .wcOob = s.flag .wcOob := by
  rw [h.flags, h.flags]
  exact ⟨by cases s.flag .wrOob <;> rfl, by cases s.flag .wcOob <;> rfl⟩

/-- One block on the grid, of any opcode but 0x6: clean, or the exception. -/
theorem runBlock_clean_or_overruns {s : State} (hbusy : s.flag .busy = true) (hrun : RunInBounds s)
    (hgrid : OnTheGrid s) (hop : fetchOpcode s ≠ 0x6) :
    ∃ t, (CleanDispatch s t ∧ runBlock s = .next (walkerAdvance t))
      ∨ (TakesPayloadOverrun (fetchOpcode s) s t ∧ runBlock s = .next t) := by
  rcases runBlock_cases s with ⟨-, h⟩ | ⟨i, rest, t, hdec, ht, h⟩
  · exact ⟨_, .inr ⟨raisePayloadOverrun_takes _ s, h⟩⟩
  · have hi : i ≠ .skip2 := by
      rintro rfl
      exact hop (opcode_of_decode hdec).symm
    refine ⟨t, ?_⟩
    rcases exec_clean_or_overruns hi hrun hgrid ht with hclean | hover
    · exact .inl ⟨hclean, by rw [h, if_pos (hclean.busy hbusy)]⟩
    · have hidle : t.flag .busy = false := hover.flags .busy
      rw [hidle, if_neg Bool.false_ne_true] at h
      exact .inr ⟨opcode_of_decode hdec ▸ hover, h⟩

/-- Settles O59: a clean dispatch hands the walker a state on the grid; the other outcome is the exception. -/
theorem cleanRunStaysOnTheGrid : Obligations.CleanRunStaysOnTheGrid := by
  intro s hhost hbusy hrun hgrid hop
  have hstep : step s = runBlock s := by rw [step_of_no_host hhost, decoderTurn, if_pos hbusy]
  rw [hstep]
  obtain ⟨t, ⟨hclean, h⟩ | ⟨hover, h⟩⟩ := runBlock_clean_or_overruns hbusy hrun hgrid hop
  · obtain ⟨hnext, hend⟩ := hclean.walkerAdvance hrun hgrid hbusy
    obtain ⟨hwr, hwc⟩ := walkerAdvance_boundFlags t
    exact ⟨_, h, fun _ => hnext, fun hidle => .inr (hend hidle), hwr.trans hclean.wrOob, hwc.trans hclean.wcOob⟩
  · refine ⟨t, h, fun hb => ?_, fun _ => .inl hover, hover.boundFlags⟩
    cases (hover.flags .busy).symm.trans hb

end Sys2Proof.Machine
end

section
/-! PROOF. The memories at their own ports (20_memory.md R64, R65, R72, R75): one byte read after a write, the checked
accesses of the decoder, and the accesses of the host. -/

namespace Sys2Proof.Machine

/-- Settles O10: read after write, as the law of memory has it. -/
theorem readAfterWriteGivesTheLastValue : Obligations.ReadAfterWriteGivesTheLastValue :=
  Memory.read_write

/-- Settles O11: below `FRAME` the write is one byte of `CUR`, elsewhere it is the latch. -/
theorem checkedWriteStoresOrSuppresses : Obligations.CheckedWriteStoresOrSuppresses := by
  refine fun a v s => ⟨fun ha => ⟨Memory.write s.cur a v, if_pos ha, fun x => ?_⟩, fun ha => if_neg (Nat.not_lt.mpr ha)⟩
  rw [curWrite_curByte]
  simp only [ha, and_true]

/-! ### The checked reads -/

theorem curRead_of_inRange {s : State} {a : Int} (h : 0 ≤ a ∧ a < s.frame) : curRead s a = some (s.curByte a.toNat) :=
  if_pos h

theorem histRead_of_inRange {s : State} {a : Int} (h : 0 ≤ a ∧ a < s.frame) : histRead s a = some (s.histByte a.toNat) :=
  if_pos h

theorem curRead_of_outOfRange {s : State} {a : Int} (h : a < 0 ∨ s.frame ≤ a) : curRead s a = none :=
  if_neg (by omega)

theorem histRead_of_outOfRange {s : State} {a : Int} (h : a < 0 ∨ s.frame ≤ a) : histRead s a = none :=
  if_neg (by omega)

/-- A byte copy whose source gives no byte makes no write (20_memory.md R65). -/
theorem copyByte_of_none {src : State → Int → Option Byte} {off : Int} {r c : Nat} {s : State}
    (h : src s (s.pixelIndex r c + off) = none) : copyByte src off r c s = { s with srcOob := true } := by
  rw [copyByte, h]

/-- Settles O12: the range check decides, and the copy at the offset that leads to the index reads at that index. -/
theorem checkedReadsGiveAByteOrNone : Obligations.CheckedReadsGiveAByteOrNone := by
  refine fun s a => ⟨fun hlow hhigh => ⟨curRead_of_inRange ⟨hlow, hhigh⟩, histRead_of_inRange ⟨hlow, hhigh⟩⟩,
    fun hout => ⟨curRead_of_outOfRange hout, histRead_of_outOfRange hout, fun r c => ?_⟩⟩
  have hsource : (s.pixelIndex r c : Int) + (a - s.pixelIndex r c) = a := by omega
  exact ⟨copyByte_of_none (by rw [hsource]; exact curRead_of_outOfRange hout),
    copyByte_of_none (by rw [hsource]; exact histRead_of_outOfRange hout)⟩

/-! ### The host's accesses -/

theorem step_of_writeMem {s : State} {sp : Space} {a : Nat} {v : Byte} {rest : List HostTurn}
    (h : s.host = .writeMem sp a v :: rest) : step s = hostWriteMem sp a v { s with host := rest } := by
  simp only [step, turn, h]

theorem step_of_readMem {s : State} {sp : Space} {a : Nat} {rest : List HostTurn}
    (h : s.host = .readMem sp a :: rest) : step s = hostReadMem sp a { s with host := rest } := by
  simp only [step, turn, h]

theorem State.memory_host (s : State) (turns : List HostTurn) (sp : Space) :
    ({ s with host := turns } : State).memory sp = s.memory sp := by
  cases sp <;> rfl

theorem hostWriteMem_of_idle {sp : Space} {a : Nat} {v : Byte} {s : State} (ha : a < spaceBound)
    (hidle : s.flag .busy = false) :
    hostWriteMem sp a v s = .next (s.setMemory sp (Memory.write (s.memory sp) a v)) := by
  simp [hostWriteMem, Nat.not_le.mpr ha, hidle]

theorem hostReadMem_of_allowed {sp : Space} {a : Nat} {s : State} (ha : a < spaceBound)
    (hallowed : s.flag .busy = false ∨ sp ≠ .cur) :
    hostReadMem sp a s = .next { s with readData := (Memory.read s.powerUp sp (s.memory sp) a).setWidth 64 } := by
  have hgo : (s.flag .busy && sp == .cur) = false := by
    rcases hallowed with h | h <;> simp [h]
  simp [hostReadMem, Nat.not_le.mpr ha, hgo]

/-- Settles O45: by the index and by whether the decoder is busy, the write and the read in turn. -/
theorem hostMemoryAccessesGoThroughWhileIdle : Obligations.HostMemoryAccessesGoThroughWhileIdle := by
  constructor
  · intro s sp a v turns hhost
    rw [step_of_writeMem hhost]
    refine ⟨fun ha => if_pos ha, fun ha hbusy => ?_, fun ha hidle => ?_⟩
    · exact (if_neg (Nat.not_le.mpr ha)).trans (if_pos hbusy)
    · refine ⟨Memory.write (s.memory sp) a v, ?_, fun x => Memory.read_write _ _ _ _ _ _⟩
      rw [← State.memory_host s turns]
      exact hostWriteMem_of_idle ha hidle
  · intro s sp a turns hhost
    rw [step_of_readMem hhost]
    refine ⟨fun ha => if_pos ha, fun ha hbusy hcur => ?_, fun ha hallowed => ?_⟩
    · subst hcur
      have hstop : (s.flag .busy && Space.cur == .cur) = true := by rw [hbusy]; rfl
      exact (if_neg (Nat.not_le.mpr ha)).trans (if_pos hstop)
    · refine ⟨_, hostReadMem_of_allowed ha hallowed, ?_⟩
      rw [State.memory_host]
      exact BitVec.toNat_setWidth_of_le (by decide)

end Sys2Proof.Machine
end

section
/-! PROOF. What the decoder can touch (20_memory.md R64; 00_scope.md R11; 30_encoding.md R102): the body of every opcode
reaches `CUR` through checked writes at pixels of its own block. From this follow the frame of a decoder step, and that
every step keeps the memories canonical. -/

namespace Sys2Proof.Machine

/-! ### The bodies of the opcodes -/

/-- The three kinds of body a dispatch has: none, a block copy, or a list of checked writes inside the block. -/
inductive BlockBody : (State → State) → Prop
  | keep : BlockBody fun u => u
  | copy (src : State → Int → Option Byte) (off : State → Int) : BlockBody fun u => blockCopy src (off u) u
  | writes (ws : State → List (Nat × Byte)) (inBlock : ∀ u, InBlock u (ws u)) : BlockBody fun u => curWrites (ws u) u

/-- Every instruction but `SKIP2` is the dispatch of its form around one of these bodies. -/
theorem exec_blockBody (i : Instr) (hi : i ≠ .skip2) :
    ∃ execute, BlockBody execute ∧ ∀ s, exec i s = dispatch i.form execute s := by
  cases i
  case skip2 => exact absurd rfl hi
  case keep => exact ⟨_, .keep, fun _ => rfl⟩
  case cph | cpcf | cpcb | cphn | cphw =>
    simp only [exec, execCph, execCpcf, execCpcb, execCphn, execCphw, Instr.form]
    exact ⟨_, .copy _ _, fun _ => rfl⟩
  all_goals
    simp only [exec, execPat2Row, execPat2Cell, execPat2qQuad, execPat2qLr, execPat2qTb, execPat4U1x1, execPat4U2x2,
      execPat4U2x1, execPat4U1x2, execPat4qQuad, execPat4qLr, execPat4qTb, execRaw, execRaw2, execRaw4, execFill,
      execDith, Instr.form]
    refine ⟨_, .writes _ fun u => ?_, fun _ => rfl⟩
  case pat2Row | pat4U1x1 => exact .flatMap fun r _ => inBlock_pu1x1 (c := 0) rfl r.isLt (by decide)
  case pat4U2x1 => exact .flatMap fun r _ => inBlock_pu2x1 rfl r.isLt
  case pat2Cell =>
    refine .flatMap fun q hq => inBlock_pu2x2 (r := 2 * q) rfl ?_
    have := List.mem_range.mp hq
    omega
  case pat4U2x2 => exact .flatMap fun q _ => inBlock_pu2x2 (r := 2 * q) rfl (by omega)
  case pat4U1x2 => exact .flatMap fun q _ => inBlock_pu1x2 (r := 2 * q) rfl (by omega)
  case pat2qQuad | pat4qQuad =>
    exact .flatMap fun q _ => inBlock_quadUnit (r := 4 * (q % 2)) (c := 4 * (q / 2)) rfl (by omega) (by omega)
  case pat2qLr | pat4qLr => exact inBlock_halves
  case pat2qTb | pat4qTb =>
    exact .append (.flatMap fun r _ => inBlock_pu1x1 (r := r) (c := 0) rfl (by omega) (by decide))
      (.flatMap fun r _ => inBlock_pu1x1 (r := 4 + r) (c := 0) rfl (by omega) (by decide))
  case raw => exact .flatMap fun r _ => .map fun c _ => ⟨r, r.isLt, c, c.isLt, rfl⟩
  case raw2 =>
    exact .flatMap fun p _ => .flatMap fun q _ =>
      inBlock_fillUnit (r := 2 * p) (c := 2 * q) rfl (by omega) (by omega)
  case raw4 =>
    exact .flatMap fun b _ => .append (inBlock_fillUnit (r := 4 * b) (c := 0) rfl (by omega) (by decide))
      (inBlock_fillUnit (r := 4 * b) (c := 4) rfl (by omega) (by decide))
  case fill => exact inBlock_fillUnit u.wc_eq_pixelIndex (by decide) (by decide)
  case dith =>
    refine .map fun p hp => ?_
    obtain ⟨hr, hc⟩ := blockPixels_lt hp
    exact ⟨p.1, hr, p.2, hc, rfl⟩

theorem BlockBody.touchesPixelsOnly {execute : State → State} (h : BlockBody execute) : TouchesPixelsOnly execute := by
  cases h with
  | keep => exact touchesPixelsOnly_id
  | copy src off => exact touchesPixelsOnly_blockCopy src off
  | writes ws _ => exact touchesPixelsOnly_curWrites ws

/-! ### The bytes a body leaves alone -/

theorem keepsOtherPixels_of_cur {s t : State} (hcur : t.cur = s.cur) (hpow : t.powerUp = s.powerUp) :
    KeepsOtherPixels s t := fun a _ => by
  simp only [State.curByte, hcur, hpow]

/-- A copied byte changes only itself, and only in range. -/
theorem copyByte_curByte_other {src : State → Int → Option Byte} {off : Int} {r c a : Nat} {s : State}
    (h : s.pixelIndex r c < s.frame → a ≠ s.pixelIndex r c) : (copyByte src off r c s).curByte a = s.curByte a := by
  unfold copyByte
  split
  · rw [curWrite_curByte, if_neg fun ⟨ha, hlt⟩ => h hlt ha]
  · rfl

theorem blockCopy_keepsOtherPixels (src : State → Int → Option Byte) (off : Int) (s : State) :
    KeepsOtherPixels s (blockCopy src off s) := by
  intro a ha
  suffices ∀ (ps : List (Nat × Nat)) (u : State), (∀ p ∈ ps, u.pixelIndex p.1 p.2 < u.frame → a ≠ u.pixelIndex p.1 p.2) →
      (ps.foldl (fun t p => copyByte src off p.1 p.2 t) u).curByte a = u.curByte a by
    refine this blockPixels s fun p hp => ?_
    obtain ⟨hr, hc⟩ := blockPixels_lt hp
    exact ha _ hr _ hc
  intro ps
  induction ps with
  | nil => exact fun u _ => rfl
  | cons p ps ih =>
    intro u hu
    rw [List.foldl_cons, ih, copyByte_curByte_other (hu p List.mem_cons_self)]
    intro q hq
    rw [copyByte_pixelIndex, copyByte_frame]
    exact hu q (List.mem_cons_of_mem p hq)

theorem curWrites_keepsOtherPixels {s : State} {ws : List (Nat × Byte)} (h : InBlock s ws) :
    KeepsOtherPixels s (curWrites ws s) := by
  intro a ha
  refine curWrites_curByte_other ws s a ?_
  by_cases hlt : a < s.frame
  · refine .inr fun p hp hpa => ?_
    obtain ⟨r, hr, c, hc, hpix⟩ := h p hp
    have hat : a = s.pixelIndex r c := hpa.symm.trans hpix
    exact ha r hr c hc (hat ▸ hlt) hat
  · exact .inl (Nat.le_of_not_lt hlt)

theorem BlockBody.keepsOtherPixels {execute : State → State} (h : BlockBody execute) (u : State) :
    KeepsOtherPixels u (execute u) := by
  cases h with
  | keep => exact fun _ _ => rfl
  | copy src off => exact blockCopy_keepsOtherPixels src (off u) u
  | writes ws hws => exact curWrites_keepsOtherPixels (hws u)

theorem BlockBody.canonical {execute : State → State} (h : BlockBody execute) (u : State)
    (hcur : Memory.wf u.cur = true) : Memory.wf (execute u).cur = true := by
  cases h with
  | keep => exact hcur
  | copy src off => exact blockCopy_wf src (off u) u hcur
  | writes ws _ => exact curWrites_wf (ws u) u hcur

/-! ### One decoder step -/

/-- At most three records are appended (60_exceptions.md R266 to R268). -/
def AppendsRecords (s t : State) : Prop :=
  ∃ records, t.diag = s.diag ++ records ∧ records.length ≤ 3

theorem appendsRecords_of_eq {s t : State} (h : t.diag = s.diag) : AppendsRecords s t :=
  ⟨[], by rw [h, List.append_nil], by decide⟩

theorem optionalRecord_length_le (c : Prop) [Decidable c] (r : DiagRecord) : (if c then [r] else []).length ≤ 1 := by
  split <;> simp

theorem dispatchRecords_length_le (op : Nibble) (s t : State) (checksWc : Bool) :
    (dispatchRecords op s t checksWc).length ≤ 3 := by
  simp only [dispatchRecords, List.length_append]
  exact Nat.add_le_add (Nat.add_le_add (optionalRecord_length_le _ _) (optionalRecord_length_le _ _))
    (optionalRecord_length_le _ _)

theorem appendsRecords_endOfDispatch (op : Nibble) (u : State) : AppendsRecords u (noteWcOob op (endOfBody op u)) :=
  ⟨_, diag_endOfDispatch op u, dispatchRecords_length_le _ _ _ _⟩

/-- The early end makes no check of R268 (40_walker_dispatch.md R128), so it has the records of R267 alone. -/
theorem appendsRecords_endOfBody (op : Nibble) (u : State) : AppendsRecords u (endOfBody op u) := by
  refine ⟨_, diag_endOfBody op u, ?_⟩
  rw [List.length_append]
  exact Nat.le_succ_of_le (Nat.add_le_add (optionalRecord_length_le _ _) (optionalRecord_length_le _ _))

/-- What a step of the decoder may touch, whatever it does to the working registers, `STATUS` and the fault record. -/
structure DecoderTouches (s t : State) : Prop where
  config : t.width = s.width ∧ t.height = s.height ∧ t.payLen = s.payLen ∧ t.payRem = s.payRem
  memories : t.hist = s.hist ∧ t.map = s.map ∧ t.pay = s.pay
  own : t.host = s.host ∧ t.readData = s.readData ∧ t.powerUp = s.powerUp ∧ t.draws = s.draws
  pixels : KeepsOtherPixels s t
  canonical : Memory.wf s.cur = true → Memory.wf t.cur = true
  records : AppendsRecords s t

theorem DecoderTouches.refl (s : State) : DecoderTouches s s :=
  ⟨⟨rfl, rfl, rfl, rfl⟩, ⟨rfl, rfl, rfl⟩, ⟨rfl, rfl, rfl, rfl⟩, fun _ _ => rfl, id, appendsRecords_of_eq rfl⟩

theorem DecoderTouches.of_same {s t : State} (hsame : SameOutside s t) (hpixels : KeepsOtherPixels s t)
    (hcur : Memory.wf s.cur = true → Memory.wf t.cur = true) (hrec : AppendsRecords s t) : DecoderTouches s t := by
  have hconfig := hsame.config
  obtain ⟨-, -, -, -, -, -, -, -, -, -, hhist, hmap, hpay, hown⟩ := hsame
  exact ⟨hconfig, ⟨hhist, hmap, hpay⟩, hown, hpixels, hcur, hrec⟩

theorem SameOutside.powerUp {s t : State} (h : SameOutside s t) : t.powerUp = s.powerUp := by
  obtain ⟨-, -, -, -, -, -, -, -, -, -, -, -, -, -, -, hpow, -⟩ := h
  exact hpow

theorem TakesPayloadOverrun.touches {op : Nibble} {s t : State} (h : TakesPayloadOverrun op s t) : DecoderTouches s t := by
  obtain ⟨-, -, -, -, -, -, -, -, -, -, hwidth, hheight, hlen, hrem, hcur, hhist, hmap, hpay, hdiag, -, -, hown⟩ := h
  have ⟨_, _, hpow, _⟩ := hown
  exact ⟨⟨hwidth, hheight, hlen, hrem⟩, ⟨hhist, hmap, hpay⟩, hown, keepsOtherPixels_of_cur hcur hpow,
    fun hwf => hcur ▸ hwf, appendsRecords_of_eq hdiag⟩

/-- The walker's advance moves the block cursor, `WC` and `STATUS` only. -/
theorem DecoderTouches.walkerAdvance {s t : State} (h : DecoderTouches s t) : DecoderTouches s (walkerAdvance t) := by
  rcases walkerAdvance_cases t with ⟨-, hadv⟩ | ⟨-, -, hadv⟩ | ⟨-, -, hadv⟩ <;> rw [hadv] <;>
    exact ⟨h.config, h.memories, h.own, h.pixels, h.canonical, h.records⟩

/-- `SKIP2` writes no pixel. -/
theorem execSkip2_touches {s t : State} (h : execSkip2 s = .next t) : DecoderTouches s t := by
  have hsame := (execSkip2_completes h).same
  obtain ⟨hcur, hrec⟩ : t.cur = s.cur ∧ AppendsRecords s t := by
    rcases execSkip2_cases s with ⟨-, hcase⟩ | ⟨-, hcase⟩
    · obtain rfl := Host.Outcome.next.inj (h.symm.trans hcase)
      refine ⟨?_, appendsRecords_endOfBody _ { clearLatches s with wc := (skip2 s).1 }⟩
      rw [endOfBody_eq]
      rfl
    · obtain rfl := Host.Outcome.next.inj (h.symm.trans hcase)
      refine ⟨?_, appendsRecords_endOfDispatch _ { clearLatches s with wc := (skip2 s).1 }⟩
      rw [endOfDispatch_eq]
      rfl
  exact .of_same hsame (keepsOtherPixels_of_cur hcur hsame.powerUp) (fun hwf => hcur ▸ hwf) hrec

theorem exec_touches {i : Instr} {s t : State} (h : exec i s = .next t) : DecoderTouches s t := by
  by_cases hi : i = .skip2
  · subst hi
    exact execSkip2_touches h
  · obtain ⟨execute, hbody, hexec⟩ := exec_blockBody i hi
    rw [hexec] at h
    by_cases hfits : i.form.length = 0 ∨ s.fits i.form.length
    · obtain ⟨t', ht', hadv, hcur, -⟩ := dispatch_advances i.form execute s hbody.touchesPixelsOnly hfits
      obtain rfl := Host.Outcome.next.inj (h.symm.trans ht')
      obtain ⟨-, -, -, -, hdiag, hsame⟩ := hadv
      refine .of_same hsame (fun a ha => ?_) (fun hwf => ?_) ⟨_, hdiag, dispatchRecords_length_le _ _ _ _⟩
      · have hpow : (execute (clearLatches s)).powerUp = s.powerUp := by rw [hbody.touchesPixelsOnly]; rfl
        calc t.curByte a
          _ = (execute (clearLatches s)).curByte a := by simp only [State.curByte, hcur, hsame.powerUp, hpow]
          _ = s.curByte a := hbody.keepsOtherPixels (clearLatches s) a ha
      · rw [hcur]
        exact hbody.canonical (clearLatches s) hwf
    · obtain ⟨hlen, hcut⟩ := not_or.mp hfits
      obtain ⟨t', ht', hover⟩ := dispatch_overruns i.form execute s (Nat.pos_of_ne_zero hlen) hcut
      obtain rfl := Host.Outcome.next.inj (h.symm.trans ht')
      exact hover.touches

theorem runBlock_touches (s : State) : ∃ t, runBlock s = .next t ∧ DecoderTouches s t := by
  rcases runBlock_cases s with ⟨-, hrun⟩ | ⟨i, rest, u, -, hu, hrun⟩
  · exact ⟨_, hrun, (raisePayloadOverrun_takes _ s).touches⟩
  · refine ⟨_, hrun, ?_⟩
    split
    · exact (exec_touches hu).walkerAdvance
    · exact exec_touches hu

theorem decoderTurn_touches (s : State) : ∃ t, decoderTurn s = .next t ∧ DecoderTouches s t := by
  rcases decoderTurn_cases s with ⟨-, h⟩ | ⟨-, h⟩ <;> rw [h]
  · exact runBlock_touches s
  · exact ⟨s, rfl, .refl s⟩

/-- Settles O57: the step is the decoder's turn, and the turn's frame is the frame asked for. -/
theorem decoderStepTouchesOnlyItsOwnState : Obligations.DecoderStepTouchesOnlyItsOwnState := by
  intro s hhost
  rw [step_of_no_host hhost]
  obtain ⟨t, ht, htouch⟩ := decoderTurn_touches s
  obtain ⟨hwidth, hheight, hlen, hrem⟩ := htouch.config
  obtain ⟨hhist, hmap, hpay⟩ := htouch.memories
  obtain ⟨hhost', hread, hpow, hdraws⟩ := htouch.own
  exact ⟨t, ht, hwidth, hheight, hlen, hrem, hhist, hmap, hpay, hhost', hread, hpow, hdraws, htouch.pixels,
    htouch.records⟩

/-! ### The memories stay canonical -/

theorem DecoderTouches.memoriesCanonical {s t : State} (h : DecoderTouches s t) (hs : MemoriesCanonical s) :
    MemoriesCanonical t := by
  obtain ⟨hcur, hhist, hmap, hpay⟩ := hs
  obtain ⟨hhist', hmap', hpay'⟩ := h.memories
  exact ⟨h.canonical hcur, hhist'.symm ▸ hhist, hmap'.symm ▸ hmap, hpay'.symm ▸ hpay⟩

theorem MemoriesCanonical.decoderTurn {s t : State} (hs : MemoriesCanonical s) (h : decoderTurn s = .next t) :
    MemoriesCanonical t := by
  obtain ⟨t', ht', htouch⟩ := decoderTurn_touches s
  obtain rfl := Host.Outcome.next.inj (h.symm.trans ht')
  exact htouch.memoriesCanonical hs

theorem MemoriesCanonical.memory {s : State} (h : MemoriesCanonical s) (sp : Space) :
    Memory.wf (s.memory sp) = true := by
  obtain ⟨hcur, hhist, hmap, hpay⟩ := h
  cases sp <;> assumption

theorem MemoriesCanonical.setMemory {s : State} (h : MemoriesCanonical s) (sp : Space) {m : Memory}
    (hm : Memory.wf m = true) : MemoriesCanonical (s.setMemory sp m) := by
  obtain ⟨hcur, hhist, hmap, hpay⟩ := h
  cases sp with
  | cur => exact ⟨hm, hhist, hmap, hpay⟩
  | hist => exact ⟨hcur, hm, hmap, hpay⟩
  | map => exact ⟨hcur, hhist, hm, hpay⟩
  | pay => exact ⟨hcur, hhist, hmap, hm⟩

theorem MemoriesCanonical.hostWriteMem {sp : Space} {a : Nat} {v : Byte} {s t : State} (hs : MemoriesCanonical s)
    (h : hostWriteMem sp a v s = .next t) : MemoriesCanonical t := by
  unfold Machine.hostWriteMem at h
  split at h
  · cases h
  · next ha =>
    split at h
    · cases h
    · cases h
      exact hs.setMemory sp (Memory.wf_write _ a v (Nat.lt_of_not_le ha) (hs.memory sp))

theorem MemoriesCanonical.hostReadMem {sp : Space} {a : Nat} {s t : State} (hs : MemoriesCanonical s)
    (h : hostReadMem sp a s = .next t) : MemoriesCanonical t := by
  unfold Machine.hostReadMem at h
  repeat' split at h
  all_goals cases h
  exact hs

theorem MemoriesCanonical.writeRegister {s : State} (hs : MemoriesCanonical s) (n : Nat) (v : BitVec 64) :
    MemoriesCanonical (writeRegister n v s) := by
  unfold Machine.writeRegister startFrame
  repeat' split
  all_goals exact hs

theorem MemoriesCanonical.readRegister {s : State} (hs : MemoriesCanonical s) (n : Nat) :
    MemoriesCanonical (readRegister n s) := by
  rw [readRegister_eq]
  exact hs

theorem MemoriesCanonical.popTurn {s : State} (hs : MemoriesCanonical s) (rest : List HostTurn) :
    MemoriesCanonical { s with host := rest } := hs

/-- Settles O50: whoever moves, a memory is kept or takes one byte below the bound of every space. -/
theorem everyStepKeepsTheMemoriesCanonical : Obligations.EveryStepKeepsTheMemoriesCanonical := by
  intro s t hs h
  rcases step_cases s with ⟨-, hst⟩ | ⟨rest, ⟨-, hst⟩ | ⟨n, v, -, hst⟩ | ⟨n, -, hst⟩ | ⟨sp, a, v, -, hst⟩
    | ⟨sp, a, -, hst⟩ | ⟨-, hst⟩⟩ <;> rw [hst] at h
  · exact hs.decoderTurn h
  · exact (hs.popTurn rest).decoderTurn h
  · cases h
    exact (hs.popTurn rest).writeRegister n v
  · cases h
    exact (hs.popTurn rest).readRegister n
  · exact (hs.popTurn rest).hostWriteMem h
  · exact (hs.popTurn rest).hostReadMem h
  · cases h
    exact hs

end Sys2Proof.Machine
end

section
/-! PROOF. The statements of 30_encoding.md: what the decoder accepts is exactly what the encoder writes for the well-formed
instructions (R90 to R97), the form an opcode takes (R96), and the fields of the copy offsets (R98 to R100). -/

namespace Sys2Proof

/-! ### Comparing two bytes of the payload -/

/-- Two bytes of a group are compared as they stand in it, whatever follows the group. -/
@[simp] theorem byteLe_operands {n i j : Nat} (d : Vector Byte n) (rest : List Byte) (hi : i < n) (hj : j < n) :
    byteLe (d.toList ++ rest) i j = some (decide (d[i] ≤ d[j])) :=
  byteLe_of_getElem (getElem?_operands d rest hi) (getElem?_operands d rest hj)

theorem byteLe_of_lt {p : List Byte} {i j : Nat} (hi : i < p.length) (hj : j < p.length) :
    byteLe p i j = some (decide ((p.getD i 0).toNat ≤ (p.getD j 0).toNat)) := by
  rw [byteLe_of_getElem (List.getElem?_eq_getElem hi) (List.getElem?_eq_getElem hj)]
  simp [hi, hj, BitVec.le_def]

theorem byteLe_of_length_le {p : List Byte} {i j : Nat} (h : p.length ≤ j) : byteLe p i j = none := by
  cases hi : p[i]? <;> simp [byteLe, h, hi]

/-! ### The choice of a form (30_encoding.md R96) -/

theorem formOf_pat2 (p : List Byte) :
    formOf .pat2 p = (byteLe p 0 1).map fun le => if le then .pat2Row else .pat2Cell := by
  rcases h : byteLe p 0 1 with _ | _ | _ <;> simp [formOf, h]

theorem formOf_pat2q (p : List Byte) :
    formOf .pat2q p = (byteLe p 0 1).bind fun le =>
      if le then some .pat2qQuad else (byteLe p 6 7).map fun le' => if le' then .pat2qLr else .pat2qTb := by
  rcases h : byteLe p 0 1 with _ | _ | _ <;> rcases h' : byteLe p 6 7 with _ | _ | _ <;> simp [formOf, h, h']

theorem formOf_pat4 (p : List Byte) :
    formOf .pat4 p = (byteLe p 0 1).bind fun le => (byteLe p 2 3).map fun le' =>
      if le then (if le' then .pat4U1x1 else .pat4U2x2) else (if le' then .pat4U2x1 else .pat4U1x2) := by
  rcases h : byteLe p 0 1 with _ | _ | _ <;> rcases h' : byteLe p 2 3 with _ | _ | _ <;> simp [formOf, h, h']

theorem formOf_pat4q (p : List Byte) :
    formOf .pat4q p = (byteLe p 0 1).bind fun le =>
      if le then some .pat4qQuad else (byteLe p 12 13).map fun le' => if le' then .pat4qLr else .pat4qTb := by
  rcases h : byteLe p 0 1 with _ | _ | _ <;> rcases h' : byteLe p 12 13 with _ | _ | _ <;> simp [formOf, h, h']

/-- An instruction's own bytes select its form exactly when it is well-formed (30_encoding.md R96, R104): the choice turns on
the first comparison and, in the forms with a second pair of selecting colours, on the second. -/
theorem formOf_operandBytes_iff (i : Instr) (rest : List Byte) :
    formOf i.form.opcode (operandBytes i ++ rest) = some i.form ↔ i.wellFormed = true := by
  cases i
  case pat2Row d | pat2Cell d =>
    simp [Instr.form, Form.opcode, operandBytes, Instr.wellFormed, formOf_pat2]
  case pat2qQuad d | pat2qLr d | pat2qTb d =>
    by_cases h : d[0] ≤ d[1] <;> by_cases h' : d[6] ≤ d[7] <;>
      simp [Instr.form, Form.opcode, operandBytes, Instr.wellFormed, formOf_pat2q, ← BitVec.not_le, h, h']
  case pat4U1x1 d | pat4U2x2 d | pat4U2x1 d | pat4U1x2 d =>
    by_cases h : d[0] ≤ d[1] <;> by_cases h' : d[2] ≤ d[3] <;>
      simp [Instr.form, Form.opcode, operandBytes, Instr.wellFormed, formOf_pat4, ← BitVec.not_le, h, h']
  case pat4qQuad d | pat4qLr d | pat4qTb d =>
    by_cases h : d[0] ≤ d[1] <;> by_cases h' : d[12] ≤ d[13] <;>
      simp [Instr.form, Form.opcode, operandBytes, Instr.wellFormed, formOf_pat4q, ← BitVec.not_le, h, h']
  all_goals exact iff_of_true rfl rfl

/-! ### Reading the operands (30_encoding.md R95) -/

theorem toList_vector_one (d : Vector Byte 1) : d.toList = [d[0]] :=
  List.ext_getElem (by simp) fun k hk _ => by
    obtain rfl : k = 0 := by simpa using hk
    simp

theorem toList_vector_two (d : Vector Byte 2) : d.toList = [d[0], d[1]] :=
  List.ext_getElem (by simp) fun k hk _ => by
    obtain rfl | rfl : k = 0 ∨ k = 1 := by
      rw [Vector.length_toList] at hk
      omega
    all_goals simp

theorem readOperands_operandBytes (i : Instr) (rest : List Byte) :
    readOperands i.form (operandBytes i ++ rest) = some (i, rest) := by
  cases i
  case cph | keep | skip2 | cpcf | cpcb | cphw | fill | dith => rfl
  case cphn xn yn =>
    show some (Instr.cphn (lowNibble (yn ++ xn)) (highNibble (yn ++ xn)), rest) = _
    rw [lowNibble_append, highNibble_append]
  all_goals simp [readOperands, operandBytes, Instr.form, takeBytes_append]

/-- What the reader leaves over follows the very bytes the encoder writes for what it read: no bit is dropped. -/
theorem operandBytes_of_readOperands {f : Form} {p rest : List Byte} {i : Instr}
    (h : readOperands f p = some (i, rest)) : operandBytes i ++ rest = p := by
  cases f
  case cph | keep | skip2 => cases h; rfl
  all_goals
    simp only [readOperands, Option.map_eq_some_iff] at h
    obtain ⟨⟨d, r⟩, hd, h⟩ := h
    cases h
    rw [takeBytes_eq_some hd]
  case cpcf | cpcb | fill => rw [toList_vector_one]; rfl
  case cphw | dith => rw [toList_vector_two]; rfl
  case cphn => rw [toList_vector_one, operandBytes, highNibble_append_lowNibble]
  all_goals rfl

theorem readOperands_eq_some_iff {f : Form} {p rest : List Byte} {i : Instr} :
    readOperands f p = some (i, rest) ↔ i.form = f ∧ operandBytes i ++ rest = p := by
  constructor
  · exact fun h => ⟨Instr.form_of_readOperands h, operandBytes_of_readOperands h⟩
  · rintro ⟨rfl, rfl⟩
    exact readOperands_operandBytes i rest

/-! ### Decoding is the inverse of encoding -/

theorem decode_eq_ok_iff_bind {v : Nibble} {p : List Byte} {r : Instr × List Byte} :
    decode v p = .ok r ↔ (formOf (Opcode.ofNibble v) p).bind (fun f => readOperands f p) = some r := by
  rcases h : (formOf (Opcode.ofNibble v) p).bind (fun f => readOperands f p) with _ | r' <;> simp [decode, h]

theorem decode_eq_ok_iff {v : Nibble} {p rest : List Byte} {i : Instr} :
    decode v p = .ok (i, rest) ↔
      formOf (Opcode.ofNibble v) p = some i.form ∧ operandBytes i ++ rest = p := by
  rw [decode_eq_ok_iff_bind, Option.bind_eq_some_iff]
  constructor
  · rintro ⟨f, hf, hi⟩
    obtain ⟨rfl, hp⟩ := readOperands_eq_some_iff.mp hi
    exact ⟨hf, hp⟩
  · rintro ⟨hf, hp⟩
    exact ⟨i.form, hf, readOperands_eq_some_iff.mpr ⟨rfl, hp⟩⟩

/-- The decoder accepts exactly the encodings of the well-formed instructions, followed by anything (30_encoding.md R90 to
R97). -/
theorem decode_eq_ok_iff_encode {v : Nibble} {p rest : List Byte} {i : Instr} :
    decode v p = .ok (i, rest) ↔ i.wellFormed = true ∧ (encode i).1 = v ∧ (encode i).2 ++ rest = p := by
  constructor
  · intro h
    obtain ⟨hf, rfl⟩ := decode_eq_ok_iff.mp h
    obtain rfl : i.form.opcode.nibble = v := opcode_of_decode h
    rw [Opcode.ofNibble_nibble] at hf
    exact ⟨(formOf_operandBytes_iff i rest).mp hf, rfl, rfl⟩
  · rintro ⟨hwf, rfl, rfl⟩
    refine decode_eq_ok_iff.mpr ⟨?_, rfl⟩
    rw [encode, Opcode.ofNibble_nibble]
    exact (formOf_operandBytes_iff i rest).mpr hwf

/-- Settles O1: of the decoder's characterisation, the direction from the encoding. -/
theorem encodeThenDecodeGivesTheInstruction : Obligations.EncodeThenDecodeGivesTheInstruction :=
  fun _ _ hwf => decode_eq_ok_iff_encode.mpr ⟨hwf, rfl, rfl⟩

/-- Settles O2: of the decoder's characterisation, the direction from what was read. -/
theorem decodeThenEncodeGivesTheBytes : Obligations.DecodeThenEncodeGivesTheBytes :=
  fun _ _ _ _ h => decode_eq_ok_iff_encode.mp h

/-- Settles O3: each comparison has an answer where its bytes can be read and none elsewhere, and the forms follow from the
answers. -/
theorem formSelectionComparesThePeekedBytes : Obligations.FormSelectionComparesThePeekedBytes := by
  intro p le
  have hle {i j : Nat} (hi : i < p.length) (hj : j < p.length) : byteLe p i j = some (decide (le i j)) :=
    byteLe_of_lt hi hj
  have hnone {i j : Nat} (h : p.length ≤ j) : byteLe p i j = none := byteLe_of_length_le h
  refine ⟨fun h => ?_, fun h h01 => ?_, fun h h01 => ?_, fun h => ?_, fun h h01 => ?_, fun h h01 => ?_, fun h => ?_,
    fun h => ?_, fun h h' h01 => ?_, fun h h' h01 => ?_, rfl, rfl, rfl, rfl, rfl, rfl, rfl, rfl, rfl, rfl, rfl, rfl⟩
  · rw [formOf_pat2, hle (by omega) (by omega)]
    exact ⟨fun h01 => by simp [h01], fun h01 => by simp [h01]⟩
  · simp [formOf_pat2q, hle (i := 0) (j := 1) (by omega) (by omega), h01]
  · rw [formOf_pat2q, hle (by omega) (by omega), hle (by omega) (by omega)]
    exact ⟨fun h67 => by simp [h01, h67], fun h67 => by simp [h01, h67]⟩
  · rw [formOf_pat4, hle (by omega) (by omega), hle (by omega) (by omega)]
    refine ⟨?_, ?_, ?_, ?_⟩ <;> intro h01 h23 <;> simp [h01, h23]
  · simp [formOf_pat4q, hle (i := 0) (j := 1) (by omega) (by omega), h01]
  · rw [formOf_pat4q, hle (by omega) (by omega), hle (by omega) (by omega)]
    exact ⟨fun hc => by simp [h01, hc], fun hc => by simp [h01, hc]⟩
  · rw [formOf_pat2, formOf_pat2q, formOf_pat4q, hnone (by omega)]
    exact ⟨rfl, rfl, rfl⟩
  · rw [formOf_pat4, hnone (i := 2) (by omega)]
    simp
  · simp [formOf_pat2q, hle (i := 0) (j := 1) (by omega) (by omega), hnone (i := 6) (j := 7) (by omega), h01]
  · simp [formOf_pat4q, hle (i := 0) (j := 1) (by omega) (by omega), hnone (i := 12) (j := 13) (by omega), h01]

/-- Settles O4: the tables of R94 and R97 are closed and finite, 24 rows to evaluate. -/
theorem formsHaveTheTablesOpcodesAndLengths : Obligations.FormsHaveTheTablesOpcodesAndLengths := by
  unfold Obligations.FormsHaveTheTablesOpcodesAndLengths
  decide

/-- Settles O5: each of the seven is the encoding of its instruction, followed by the byte that is left over. -/
theorem writtenOutEncodingsDecode : Obligations.WrittenOutEncodingsDecode := by
  have h := encodeThenDecodeGivesTheInstruction
  exact ⟨h .keep [0x55] rfl, h (.cpcf 10) [] rfl, h (.cphn 7 9) [0x01] rfl, h (.cphw 0xFE 0x03) [] rfl,
    h (.pat2Cell #v[0x22, 0x11, 0xA5, 0x0F]) [0x08] rfl,
    h (.pat4U2x2 #v[0x01, 0x02, 0x04, 0x03, 0x1B, 0x1B, 0xE4, 0xE4]) [] rfl, h (.dith 0x07 0x09) [] rfl,
    lowNibble_append 0x1 0xE, highNibble_append 0x1 0xE⟩

namespace Machine

/-! ### The fields of the copy offsets (30_encoding.md R98 to R100) -/

theorem farOffset_of_lt {b : Byte} (h : b.toNat < 56) :
    farOffset b = (8 + ((b.toNat % 7 : Nat) : Int), ((b.toNat / 7 : Nat) : Int)) := if_pos h

theorem farOffset_of_le {b : Byte} (h : 56 ≤ b.toNat) :
    farOffset b = (-14 + (((b.toNat - 56) % 29 : Nat) : Int), 8 + (((b.toNat - 56) / 29 : Nat) : Int)) :=
  if_neg (Nat.not_lt.mpr h)

/-- The code of (14, 14) would be 56 + 6*29 + 28 = 258, which no byte holds. -/
theorem farOffset_ne_last (b : Byte) : farOffset b ≠ (14, 14) := by
  have hb := b.isLt
  intro h
  rcases Nat.lt_or_ge b.toNat 56 with hlt | hge
  · rw [farOffset_of_lt hlt, Prod.mk.injEq] at h
    omega
  · rw [farOffset_of_le hge, Prod.mk.injEq] at h
    omega

/-- Settles O6: the branch decides the formula, and the ranges are those of a remainder and a quotient of a byte. -/
theorem farOffsetFollowsTheFormula : Obligations.FarOffsetFollowsTheFormula := by
  intro b
  have hb := b.isLt
  refine ⟨fun hlt => ?_, fun hge => ?_, farOffset_ne_last b, ?_⟩
  · rw [farOffset_of_lt hlt]
    refine ⟨rfl, ?_⟩
    omega
  · rw [farOffset_of_le hge]
    refine ⟨rfl, ?_⟩
    omega
  · rintro rfl
    exact farOffset_of_le (by decide)

theorem toNat_lowNibble (b : Byte) : (lowNibble b).toNat = b.toNat % 16 := by
  simp [lowNibble]

theorem toNat_highNibble (b : Byte) : (highNibble b).toNat = b.toNat / 16 := by
  have hb := b.isLt
  simp [highNibble, Nat.shiftRight_eq_div_pow]
  omega

theorem nearOffset_bounds (v : Nibble) : -8 ≤ nearOffset v ∧ nearOffset v ≤ 7 := by
  have hv := v.isLt
  unfold nearOffset
  omega

theorem wideOffset_eq (b : Byte) :
    wideOffset b = if b.toNat < 128 then (b.toNat : Int) else (b.toNat : Int) - 256 := by
  unfold wideOffset
  rw [BitVec.toInt_eq_toNat_cond]
  split <;> split <;> omega

/-- Settles O7: the nibbles are the remainder and the quotient by 16, and the byte is read in two's complement. -/
theorem nearAndWideOffsetsReadTheirFields : Obligations.NearAndWideOffsetsReadTheirFields := by
  intro b
  have hb := b.isLt
  obtain ⟨hlow, hlow'⟩ := nearOffset_bounds (lowNibble b)
  obtain ⟨hhigh, hhigh'⟩ := nearOffset_bounds (highNibble b)
  refine ⟨?_, ?_, hlow, hlow', hhigh, hhigh', wideOffset_eq b, ?_⟩
  · rw [nearOffset, toNat_lowNibble]
  · rw [nearOffset, toNat_highNibble]
  · rw [wideOffset_eq]
    split <;> omega

end Machine
end Sys2Proof
end

section
/-! PROOF. Noninterference (40_walker_dispatch.md R129; 10_state.md R29): every operation of a dispatch is oblivious of
what only reports: states equal once this is blanked stay so. That holds of compositions, so an instruction, one block and
one step are put together from the operations. -/

namespace Sys2Proof.Machine

/-- The operation does not let the diagnostics and the remaining-length counter steer: states that differ only in them
go to states that differ only in them. -/
def Oblivious (f : State → State) : Prop :=
  ∀ s s' : State, s.blind = s'.blind → (f s).blind = (f s').blind

/-- The same for an operation with an outcome, which moreover always answers a next state. -/
def ObliviousTurn (f : State → Host.Outcome State Fault Refusal) : Prop :=
  ∀ s s' : State, s.blind = s'.blind → ∃ t t', f s = .next t ∧ f s' = .next t' ∧ t.blind = t'.blind

/-- It is enough to compute the blanked result from the blanked state. -/
theorem oblivious_of_blind {f : State → State} (g : State → State) (h : ∀ s, (f s).blind = g s.blind) : Oblivious f :=
  fun s s' hs => by rw [h s, h s', hs]

/-- What can be read off the blanked state is the same for two states that differ only in what is blanked. -/
theorem eq_of_blind_eq {α : Type} (g : State → α) {s s' : State} (h : s.blind = s'.blind)
    (hg : ∀ u, g u = g u.blind := by exact fun _ => rfl) : g s = g s' := by
  rw [hg s, hg s', h]

theorem oblivious_id : Oblivious fun s => s := fun _ _ h => h

theorem Oblivious.comp {f g : State → State} (hg : Oblivious g) (hf : Oblivious f) : Oblivious fun s => g (f s) :=
  fun s s' h => hg _ _ (hf s s' h)

theorem Oblivious.ite {c : State → Prop} [DecidablePred c] {f g : State → State} (hc : ∀ s, c s = c s.blind)
    (hf : Oblivious f) (hg : Oblivious g) : Oblivious fun s => if c s then f s else g s := by
  intro s s' h
  have hcond : c s = c s' := eq_of_blind_eq c h hc
  by_cases hs : c s
  · simpa only [if_pos hs, if_pos (hcond.mp hs)] using hf s s' h
  · simpa only [if_neg hs, if_neg (mt hcond.mpr hs)] using hg s s' h

/-! ### Flags -/

/-- The blanked state keeps the flags that steer. -/
theorem flag_blind (s : State) (f : Flag) : s.blind.flag f = (s.flag f && f.steers) := by
  cases f <;> simp [State.flag, State.blind, Flag.bit, Flag.steers]

theorem flag_eq_of_blind_eq {s s' : State} (h : s.blind = s'.blind) {f : Flag} (hf : f.steers = true) :
    s.flag f = s'.flag f :=
  eq_of_blind_eq (State.flag · f) h fun u => by rw [flag_blind, hf, Bool.and_true]

theorem oblivious_setFlag (f : Flag) : Oblivious (State.setFlag · f) := by
  refine oblivious_of_blind (fun b => { b with status := b.status ||| BitVec.twoPow 10 f.bit &&& 0x03F }) fun s => ?_
  simp only [State.blind, State.setFlag, BitVec.and_or_distrib_right]

theorem oblivious_clearFlag (f : Flag) : Oblivious (State.clearFlag · f) := by
  refine oblivious_of_blind (fun b => { b with status := b.status &&& ~~~ BitVec.twoPow 10 f.bit }) fun s => ?_
  have hcomm (x y m : BitVec 10) : x &&& y &&& m = x &&& m &&& y := by ac_rfl
  simp only [State.blind, State.clearFlag, hcomm _ _ 0x03F]

/-- Setting a flag that only reports is invisible. -/
theorem blind_setFlag_of_not_steers {f : Flag} (hf : f.steers = false) (s : State) : (s.setFlag f).blind = s.blind := by
  have hmask : BitVec.twoPow 10 f.bit &&& 0x03F = 0#10 := by
    revert hf
    cases f <;> decide
  simp only [State.blind, State.setFlag, BitVec.and_or_distrib_right, hmask, BitVec.or_zero]

/-! ### The end of a dispatch -/

/-- A check that raises a flag which only reports, and emits its record, is invisible. -/
theorem blind_report {f : Flag} (hf : f.steers = false) (c : Prop) [Decidable c] (k : DiagKind) (op : Nibble)
    (s : State) : (if c then (s.setFlag f).emit k op else s).blind = s.blind := by
  split
  · exact blind_setFlag_of_not_steers hf s
  · rfl

theorem blind_noteWrOob (op : Nibble) (s : State) : (noteWrOob op s).blind = s.blind := blind_report rfl _ _ _ s

theorem blind_noteSrcOob (op : Nibble) (s : State) : (noteSrcOob op s).blind = s.blind := blind_report rfl _ _ _ s

theorem blind_noteWcOob (op : Nibble) (s : State) : (noteWcOob op s).blind = s.blind := blind_report rfl _ _ _ s

theorem blind_noteRemNeg (s : State) : (noteRemNeg s).blind = s.blind := by
  unfold noteRemNeg
  split
  · exact blind_setFlag_of_not_steers rfl s
  · rfl

theorem blind_endOfBody (op : Nibble) (s : State) : (endOfBody op s).blind = s.blind := by
  rw [endOfBody, blind_noteRemNeg, blind_noteSrcOob, blind_noteWrOob]

theorem blind_endOfDispatch (op : Nibble) (s : State) : (noteWcOob op (endOfBody op s)).blind = s.blind := by
  rw [blind_noteWcOob, blind_endOfBody]

theorem oblivious_clearLatches : Oblivious clearLatches := oblivious_of_blind id fun _ => rfl

theorem oblivious_endNormal : Oblivious endNormal :=
  (oblivious_clearFlag .busy).comp (oblivious_setFlag .done)

theorem oblivious_endEarly : Oblivious endEarly :=
  (oblivious_clearFlag .busy).comp ((oblivious_setFlag .done).comp (oblivious_setFlag .early))

theorem oblivious_raisePayloadOverrun (op : Nibble) : Oblivious fun s => raisePayloadOverrun op (clearLatches s) := by
  have hrecord : Oblivious fun s => { s with faultOp := op, faultX := s.blockX, faultY := s.blockY, faultDp := s.dp } :=
    oblivious_of_blind (fun b => { b with faultOp := op, faultX := b.blockX, faultY := b.blockY, faultDp := b.dp })
      fun _ => rfl
  exact (oblivious_clearFlag .busy).comp ((oblivious_setFlag .fail).comp ((oblivious_setFlag .payOvr).comp
    (hrecord.comp oblivious_clearLatches)))

/-! ### The bodies of the dispatches -/

theorem oblivious_curWrite (a : Nat) (v : Byte) : Oblivious (curWrite a v) := by
  refine oblivious_of_blind (fun b => { b with cur := if a < b.frame then Memory.write b.cur a v else b.cur })
    fun s => ?_
  rw [curWrite_eq]
  rfl

/-- Checked writes whose list depends on nothing that only reports. -/
theorem oblivious_curWrites {ws : State → List (Nat × Byte)} (hws : ∀ u, ws u = ws u.blind) :
    Oblivious fun u => curWrites (ws u) u := by
  have hlist (l : List (Nat × Byte)) : Oblivious (curWrites l) := by
    induction l with
    | nil => exact oblivious_id
    | cons p l ih => exact ih.comp (oblivious_curWrite p.1 p.2)
  intro s s' h
  show (curWrites (ws s) s).blind = (curWrites (ws s') s').blind
  rw [eq_of_blind_eq ws h hws]
  exact hlist _ s s' h

theorem oblivious_copyByte {src : State → Int → Option Byte} (hsrc : ∀ u, src u = src u.blind) (off : Int) (r c : Nat) :
    Oblivious (copyByte src off r c) := by
  intro s s' h
  have hpix : s.pixelIndex r c = s'.pixelIndex r c := eq_of_blind_eq (State.pixelIndex · r c) h
  have hval : src s = src s' := eq_of_blind_eq src h hsrc
  unfold copyByte
  rw [hpix, hval]
  split
  · exact oblivious_curWrite _ _ s s' h
  · exact h

/-- A block copy whose source and offset depend on nothing that only reports. -/
theorem oblivious_blockCopy {src : State → Int → Option Byte} {off : State → Int} (hsrc : ∀ u, src u = src u.blind)
    (hoff : ∀ u, off u = off u.blind) : Oblivious fun u => blockCopy src (off u) u := by
  have hlist (d : Int) (ps : List (Nat × Nat)) :
      Oblivious fun u => ps.foldl (fun t p => copyByte src d p.1 p.2 t) u := by
    induction ps with
    | nil => exact oblivious_id
    | cons p ps ih => exact ih.comp (oblivious_copyByte hsrc d p.1 p.2)
  intro s s' h
  show (blockCopy src (off s) s).blind = (blockCopy src (off s') s').blind
  rw [eq_of_blind_eq off h hoff]
  exact hlist _ blockPixels s s' h

/-- Every instruction but `SKIP2` is the dispatch of its form, around an oblivious body. -/
theorem exec_eq_obliviousDispatch (i : Instr) (hi : i ≠ .skip2) :
    ∃ execute, Oblivious execute ∧ ∀ s, exec i s = dispatch i.form execute s := by
  cases i with
  | skip2 => exact absurd rfl hi
  | keep => exact ⟨_, oblivious_id, fun _ => rfl⟩
  | cph | cpcf | cpcb | cphn | cphw =>
    simp only [exec, execCph, execCpcf, execCpcb, execCphn, execCphw, Instr.form]
    exact ⟨_, oblivious_blockCopy (fun _ => rfl) (fun _ => rfl), fun _ => rfl⟩
  | pat2Row | pat2Cell | pat2qQuad | pat2qLr | pat2qTb | pat4U1x1 | pat4U2x2 | pat4U2x1 | pat4U1x2 | pat4qQuad
  | pat4qLr | pat4qTb | raw | raw2 | raw4 | fill | dith =>
    simp only [exec, execPat2Row, execPat2Cell, execPat2qQuad, execPat2qLr, execPat2qTb, execPat4U1x1, execPat4U2x2,
      execPat4U2x1, execPat4U1x2, execPat4qQuad, execPat4qLr, execPat4qTb, execRaw, execRaw2, execRaw4, execFill,
      execDith, Instr.form]
    exact ⟨_, oblivious_curWrites fun _ => by rfl, fun _ => rfl⟩

/-! ### One instruction, one block, one step -/

theorem oblivious_consumeAdvance (n : Nat) : Oblivious fun u => consume n (advanceBlock u) :=
  oblivious_of_blind (fun b => { b with wc := b.wc + 8, dp := b.dp + n }) fun _ => rfl

theorem obliviousTurn_dispatch (f : Form) {execute : State → State} (hbody : Oblivious execute) :
    ObliviousTurn (dispatch f execute) := by
  intro s s' h
  have hdp : s.dp = s'.dp := eq_of_blind_eq State.dp h
  have hlen : s.payLen = s'.payLen := eq_of_blind_eq State.payLen h
  have hrun : Oblivious fun u => consume f.length (advanceBlock (execute (clearLatches u))) :=
    (oblivious_consumeAdvance f.length).comp (hbody.comp oblivious_clearLatches)
  unfold dispatch
  rw [hdp, hlen]
  split
  · exact ⟨_, _, rfl, rfl, oblivious_raisePayloadOverrun _ s s' h⟩
  · refine ⟨_, _, rfl, rfl, ?_⟩
    rw [blind_endOfDispatch, blind_endOfDispatch]
    exact hrun s s' h

theorem obliviousTurn_execSkip2 : ObliviousTurn execSkip2 := by
  intro s s' h
  have hskip : skip2 s = skip2 s' := eq_of_blind_eq skip2 h
  have hbody (wc : Nat) : Oblivious fun u => endOfBody Opcode.skip2.nibble { clearLatches u with wc := wc } := by
    intro u u' hu
    rw [blind_endOfBody, blind_endOfBody]
    exact congrArg (fun v : State => { v with wc := wc }) hu
  unfold execSkip2
  rw [hskip]
  split
  · exact ⟨_, _, rfl, rfl, oblivious_endEarly.comp (hbody _) s s' h⟩
  · refine ⟨_, _, rfl, rfl, ?_⟩
    rw [blind_noteWcOob, blind_noteWcOob]
    exact hbody _ s s' h

theorem obliviousTurn_exec (i : Instr) : ObliviousTurn (exec i) := by
  by_cases hi : i = .skip2
  · subst hi
    exact obliviousTurn_execSkip2
  · obtain ⟨execute, hbody, hexec⟩ := exec_eq_obliviousDispatch i hi
    rw [funext hexec]
    exact obliviousTurn_dispatch i.form hbody

theorem oblivious_walkerAdvance : Oblivious walkerAdvance := by
  have hrow : Oblivious fun u => { u with wc := u.wc + 7 * u.w, blockX := 0, blockY := u.blockY + 1 } :=
    oblivious_of_blind (fun b => { b with wc := b.wc + 7 * b.w, blockX := 0, blockY := b.blockY + 1 }) fun _ => rfl
  have hcolumn : Oblivious fun u => { u with blockX := u.blockX + 1 } :=
    oblivious_of_blind (fun b => { b with blockX := b.blockX + 1 }) fun _ => rfl
  exact .ite (fun _ => rfl) (.ite (fun _ => rfl) (oblivious_endNormal.comp hrow) hrow) hcolumn

/-- What follows a dispatch turns on `BUSY` only. -/
theorem oblivious_afterDispatch : Oblivious fun t => if t.flag .busy then walkerAdvance t else t :=
  .ite (fun t => by rw [flag_blind]; simp [Flag.steers]) oblivious_walkerAdvance oblivious_id

theorem obliviousTurn_runBlock : ObliviousTurn runBlock := by
  intro s s' h
  have hop : fetchOpcode s = fetchOpcode s' := eq_of_blind_eq fetchOpcode h
  have hwin : payloadWindow s = payloadWindow s' := eq_of_blind_eq payloadWindow h
  unfold runBlock
  rw [hop, hwin]
  split
  · next i _ _ =>
    obtain ⟨t, t', ht, ht', hblind⟩ := obliviousTurn_exec i s s' h
    rw [ht, ht']
    exact ⟨_, _, rfl, rfl, oblivious_afterDispatch t t' hblind⟩
  · exact ⟨_, _, rfl, rfl, oblivious_raisePayloadOverrun _ s s' h⟩

theorem obliviousTurn_decoderTurn : ObliviousTurn decoderTurn := by
  intro s s' h
  unfold decoderTurn
  rw [flag_eq_of_blind_eq h (f := .busy) rfl]
  split
  · exact obliviousTurn_runBlock s s' h
  · exact ⟨s, s', rfl, rfl, h⟩

/-- Settles O60: both steps are the decoder's turn, since blanking leaves the host's turns alone, and that turn is
oblivious. -/
theorem diagnosticsDoNotSteer : Obligations.DiagnosticsDoNotSteer := by
  intro s s' hhost h
  have hhost' : s'.host = [] := (congrArg State.host h).symm.trans hhost
  rw [step_of_no_host hhost, step_of_no_host hhost']
  exact obliviousTurn_decoderTurn s s' h

end Sys2Proof.Machine
end

section
/-! PROOF. The walker and the dispatch as the statements of 40_walker_dispatch.md put them: a step as the decoded
instruction with the advance (R123, R126), the fetch (R122), the advance itself (R126, R127), and `START` (R120). -/

namespace Sys2Proof.Machine

/-! ### A step of the decoder -/

/-- Whether no host turn is left or the host passes, the step is the decoder's (log 3). -/
theorem step_of_decodersTurn {s : State} {turns : List HostTurn}
    (h : s.host = [] ∧ turns = [] ∨ s.host = .pass :: turns) : step s = decoderTurn { s with host := turns } := by
  rcases h with ⟨hhost, rfl⟩ | hpass
  · rw [step_of_no_host hhost, ← hhost]
  · exact step_of_pass hpass

theorem decoderTurn_of_busy {s : State} (h : s.flag .busy = true) : decoderTurn s = runBlock s := if_pos h

/-- One block whose opcode and operand bytes decode to `i`. -/
theorem runBlock_of_decode {s : State} {i : Instr} {rest : List Byte}
    (h : decode (fetchOpcode s) (payloadWindow s) = .ok (i, rest)) : runBlock s = afterDispatch (exec i s) := by
  rw [runBlock, h]

/-- Settles O37: the decoder's turn runs the block, and the host's list is not seen by the fetch. -/
theorem stepRunsTheDecodedInstruction : Obligations.StepRunsTheDecodedInstruction := by
  intro s turns i rest hturn hbusy hdecode
  obtain ⟨t, ht⟩ := exec_next i { s with host := turns }
  refine ⟨t, ht, ?_⟩
  calc step s
    _ = decoderTurn { s with host := turns } := step_of_decodersTurn hturn
    _ = runBlock { s with host := turns } := decoderTurn_of_busy hbusy
    _ = afterDispatch (exec i { s with host := turns }) := runBlock_of_decode hdecode
    _ = .next (if t.flag .busy then walkerAdvance t else t) := congrArg afterDispatch ht

/-! ### The fetch -/

theorem fetchOpcode_of_even {s : State} (h : s.blockX % 2 = 0) : fetchOpcode s = lowNibble (s.mapByte s.mapIndex) :=
  if_pos h

theorem fetchOpcode_of_odd {s : State} (h : s.blockX % 2 = 1) : fetchOpcode s = highNibble (s.mapByte s.mapIndex) :=
  if_neg (by omega)

theorem length_payloadWindow (s : State) : (payloadWindow s).length = min maxOperands (s.payLen.toNat - s.dp) := by
  simp only [payloadWindow, List.length_map, List.length_range]

theorem getElem?_payloadWindow {s : State} {k : Nat} (hlen : s.dp + k < s.payLen.toNat) (hk : k < maxOperands) :
    (payloadWindow s)[k]? = some (s.payByte (s.dp + k)) := by
  have hwindow : k < min maxOperands (s.payLen.toNat - s.dp) := by omega
  simp only [payloadWindow, List.getElem?_map, List.getElem?_range hwindow, Option.map_some]

/-- Settles O38: the nibble by the parity of the block column, and the window byte by byte. -/
theorem fetchReadsTheMapAndThePayload : Obligations.FetchReadsTheMapAndThePayload :=
  fun s => ⟨fetchOpcode_of_even, fetchOpcode_of_odd, length_payloadWindow s, fun _ => getElem?_payloadWindow⟩

/-! ### The walker's advance -/

/-- A normal end changes `STATUS` only. -/
theorem endNormal_eq (s : State) : endNormal s = { s with status := (endNormal s).status } := rfl

/-- Settles O39: the three places a block can have are those of `walkerAdvance_cases`; at the last block the status
word is that of a normal end. -/
theorem walkerMovesToTheNextBlock : Obligations.WalkerMovesToTheNextBlock := by
  intro s
  rcases walkerAdvance_cases s with ⟨hx, h⟩ | ⟨hx, hy, h⟩ | ⟨hx, hy, h⟩
  · exact ⟨fun _ => h, fun hx' => absurd hx' hx, fun hx' => absurd hx' hx⟩
  · exact ⟨fun hx' => absurd hx hx', fun _ _ => h, fun _ hy' => absurd hy' hy⟩
  · refine ⟨fun hx' => absurd hx hx', fun _ hy' => absurd hy hy', fun _ _ => ⟨_, h.trans (endNormal_eq _), fun f => ?_⟩⟩
    refine (flag_endNormal _ f).trans ?_
    show ((s.flag f || .done == f) && .busy != f) = (f != .busy && (s.flag f || f == .done))
    rw [Bool.and_comm, bne_comm, BEq.comm]

/-! ### `START` -/

theorem legal_iff (s : State) : s.legal = true ↔ s.w ≠ 0 ∧ s.w % 16 = 0 ∧ s.h ≠ 0 ∧ s.h % 8 = 0 := by
  simp only [State.legal, Bool.and_eq_true, bne_iff_ne, beq_iff_eq, and_assoc]

theorem startFrame_of_busy {s : State} (h : s.flag .busy = true) : startFrame s = s := if_pos h

theorem startFrame_of_illegal {s : State} (hidle : s.flag .busy = false) (hlegal : ¬ s.legal = true) :
    startFrame s = refuseStart s := by
  rw [startFrame, if_neg (ne_true_of_eq_false hidle), if_neg hlegal]

theorem acceptStart_eq (s : State) : acceptStart s =
    { s with status := 0x001, wc := 0, blockX := 0, blockY := 0, dp := 0, dr := s.payRem.toInt } := by
  have hstatus : 0 ||| BitVec.twoPow 10 Flag.busy.bit = 0x001 := by decide
  simp only [acceptStart, State.setFlag, State.payRemInt, hstatus]

theorem refuseStart_eq (s : State) : refuseStart s = { s with status := 0x014 } := by
  have hstatus : 0 ||| BitVec.twoPow 10 Flag.cfgErr.bit ||| BitVec.twoPow 10 Flag.fail.bit = 0x014 := by decide
  simp only [refuseStart, State.setFlag, hstatus]

/-- A write to `CTRL` is a `START` or nothing, by its bit 0 (10_state.md R23). -/
theorem writeRegister_ctrl (v : BitVec 64) (s : State) :
    writeRegister 4 v s = if v.getLsbD 0 then startFrame s else s := rfl

/-- Settles O41: what is written decides whether it is a `START`, `BUSY` whether it is ignored, the configuration
whether it is accepted. -/
theorem startIsAcceptedRefusedOrIgnored : Obligations.StartIsAcceptedRefusedOrIgnored := by
  intro s v turns hhost
  have hstep := step_of_writeReg hhost
  rw [writeRegister_ctrl] at hstep
  refine ⟨?_, fun hv hidle => ⟨fun hcfg => ?_, fun hcfg => ?_⟩⟩
  · rintro (hv | hbusy)
    · rw [hstep, if_neg (ne_true_of_eq_false hv)]
    · rw [hstep, startFrame_of_busy (s := { s with host := turns }) hbusy, ite_self]
  · rw [step_of_start hhost hv hidle ((legal_iff s).mpr hcfg), acceptStart_eq]
  · have hrefused := startFrame_of_illegal (s := { s with host := turns }) hidle (mt (legal_iff s).mp hcfg)
    rw [hstep, if_pos hv, hrefused, refuseStart_eq]

end Sys2Proof.Machine
end

section
/-! PROOF. The fill units of 41_pattern_unpacker.md: the indices a fill (R153) and a run of fills (R154) write, and that each
of them is written once (R160). -/

namespace Sys2Proof.Machine

/-- A row and a column below the row length are found again from the index they make. -/
theorem row_col_inj {w r c r' c' : Nat} (hc : c < w) (hc' : c' < w) (h : r * w + c = r' * w + c') : r = r' ∧ c = c' := by
  have hw : 0 < w := Nat.zero_lt_of_lt hc
  have hrow : ∀ {r c : Nat}, c < w → (r * w + c) / w = r := fun {r c} hc => by
    rw [Nat.mul_comm, Nat.mul_add_div hw, Nat.div_eq_of_lt hc, Nat.add_zero]
  obtain rfl : r = r' := by rw [← hrow (r := r) hc, h, hrow hc']
  exact ⟨rfl, Nat.add_left_cancel h⟩

/-- Column `j` of unit `k` lies in a run of `m` units, each `uw` wide. -/
theorem unitColumn_lt {m uw k j : Nat} (hk : k < m) (hj : j < uw) : k * uw + j < m * uw :=
  calc k * uw + j
    _ < (k + 1) * uw := by rw [Nat.succ_mul]; omega
    _ ≤ m * uw := Nat.mul_le_mul_right _ hk

/-- Every column of a run is a column of one of its units. -/
theorem exists_unitColumn {m uw c : Nat} (h : c < m * uw) : ∃ k < m, ∃ j < uw, c = k * uw + j :=
  ⟨c / uw, Nat.div_lt_of_lt_mul (by rwa [Nat.mul_comm]), c % uw, Nat.mod_lt _ (Nat.pos_of_lt_mul_left h),
    (Nat.div_add_mod' c uw).symm⟩

/-- Lists of indices, one for each `k` below `n`, hold every index once if each of them does and they share none. -/
theorem nodup_flatMap_range {n : Nat} {f : Nat → List Nat} (hnodup : ∀ k < n, (f k).Nodup)
    (hapart : ∀ k < n, ∀ k' < n, ∀ x, x ∈ f k → x ∈ f k' → k = k') : ((List.range n).flatMap f).Nodup := by
  refine List.nodup_flatMap.mpr ⟨fun k hk => hnodup k (List.mem_range.mp hk), ?_⟩
  refine List.nodup_range.pairwise_of_forall_ne fun k hk k' hk' hne => ?_
  rw [List.mem_range] at hk hk'
  exact fun x hx hx' => hne (hapart k hk k' hk' x hx hx')

/-! ### One fill (41_pattern_unpacker.md R153) -/

theorem map_fst_fillUnit (w a uw uh : Nat) (v : Byte) : (fillUnit w a uw uh v).map Prod.fst =
    (List.range uh).flatMap fun i => (List.range uw).map fun j => a + i * w + j := by
  simp only [fillUnit, List.map_flatMap, List.map_map, Function.comp_def]

/-- A fill writes the indices of its rectangle. -/
theorem mem_map_fst_fillUnit {w a uw uh x : Nat} {v : Byte} :
    x ∈ (fillUnit w a uw uh v).map Prod.fst ↔ ∃ i < uh, ∃ j < uw, x = a + i * w + j := by
  simp only [map_fst_fillUnit, List.mem_flatMap, List.mem_map, List.mem_range, eq_comm]

/-- A fill no wider than the frame writes no index twice. -/
theorem nodup_map_fst_fillUnit {w uw : Nat} (a uh : Nat) (v : Byte) (hw : uw ≤ w) :
    ((fillUnit w a uw uh v).map Prod.fst).Nodup := by
  rw [map_fst_fillUnit]
  refine nodup_flatMap_range (fun i _ => List.nodup_range.map fun j j' h => Nat.add_left_cancel h) ?_
  intro i _ i' _ x hx hx'
  simp only [List.mem_map, List.mem_range] at hx hx'
  obtain ⟨j, hj, rfl⟩ := hx
  obtain ⟨j', hj', h⟩ := hx'
  exact (row_col_inj (hj.trans_le hw) (hj'.trans_le hw) (by omega)).1

/-! ### A run of fills (41_pattern_unpacker.md R154) -/

section
variable {b s w a m uw uh : Nat} {col : BitVec s → Byte} {word : BitVec b}

theorem map_fst_runUnits : (runUnits w a m uw uh s col word).map Prod.fst =
    (List.range m).flatMap fun k => (fillUnit w (a + k * uw) uw uh (col (selector s word k))).map Prod.fst :=
  List.map_flatMap

/-- Side by side, the units of a run make one rectangle `m * uw` pixels wide. -/
theorem mem_map_fst_runUnits {x : Nat} : x ∈ (runUnits w a m uw uh s col word).map Prod.fst ↔
    ∃ i < uh, ∃ j < m * uw, x = a + i * w + j := by
  simp only [map_fst_runUnits, List.mem_flatMap, List.mem_range, mem_map_fst_fillUnit]
  constructor
  · rintro ⟨k, hk, i, hi, j, hj, rfl⟩
    exact ⟨i, hi, k * uw + j, unitColumn_lt hk hj, by omega⟩
  · rintro ⟨i, hi, c, hc, rfl⟩
    obtain ⟨k, hk, j, hj, rfl⟩ := exists_unitColumn hc
    exact ⟨k, hk, i, hi, j, hj, by omega⟩

/-- Two units of a run no wider than the frame share no index: a shared index gives the column in the run, and the column
gives the unit. -/
theorem unit_eq_of_mem {k k' x : Nat} {v v' : Byte} (hw : m * uw ≤ w) (hk : k < m) (hk' : k' < m)
    (hx : x ∈ (fillUnit w (a + k * uw) uw uh v).map Prod.fst)
    (hx' : x ∈ (fillUnit w (a + k' * uw) uw uh v').map Prod.fst) : k = k' := by
  obtain ⟨i, -, j, hj, rfl⟩ := mem_map_fst_fillUnit.mp hx
  obtain ⟨i', -, j', hj', h⟩ := mem_map_fst_fillUnit.mp hx'
  have hindex : i * w + (k * uw + j) = i' * w + (k' * uw + j') := by omega
  have hcolumn : k * uw + j = k' * uw + j' :=
    (row_col_inj ((unitColumn_lt hk hj).trans_le hw) ((unitColumn_lt hk' hj').trans_le hw) hindex).2
  exact (row_col_inj hj hj' hcolumn).1

/-- A run no wider than the frame writes no index twice: no unit does, and no two units share one. -/
theorem nodup_map_fst_runUnits (hw : m * uw ≤ w) : ((runUnits w a m uw uh s col word).map Prod.fst).Nodup := by
  rw [map_fst_runUnits]
  refine nodup_flatMap_range (fun k hk => nodup_map_fst_fillUnit _ _ _ ?_) fun k hk k' hk' x => unit_eq_of_mem hw hk hk'
  exact (Nat.le_mul_of_pos_left uw (Nat.zero_lt_of_lt hk)).trans hw

end

/-- Settles O9: the footprint property of R160. -/
theorem unitRunWritesItsRectangleOnce : Obligations.UnitRunWritesItsRectangleOnce :=
  fun _ _ _ _ _ _ _ _ _ hw => ⟨nodup_map_fst_runUnits hw, fun _ => mem_map_fst_runUnits⟩

end Sys2Proof.Machine
end

section
/-! PROOF. The copy opcodes 0x0 to 0x5 (42_copy_ops.md R170 to R177). A block copy is followed pixel by pixel in the order of
R170: the pixels of a block lie apart, so pixel `k` gets the byte read when the `k` pixels before it were copied, and keeps
it. What is read then is the byte of `HIST`, or that of `CUR` with the earlier pixels of the block rewritten. -/

namespace Sys2Proof.Machine

/-! ### One pixel -/

section
variable (src : State → Int → Option Byte) (off : Int) (r c : Nat) (s : State)

theorem copyByte_of_some {src : State → Int → Option Byte} {off : Int} {r c : Nat} {s : State} {v : Byte}
    (h : src s (s.pixelIndex r c + off) = some v) : copyByte src off r c s = curWrite (s.pixelIndex r c) v s := by
  rw [copyByte, h]

theorem copyByte_srcOob_iff : (copyByte src off r c s).srcOob = true ↔
    s.srcOob = true ∨ src s (s.pixelIndex r c + off) = none := by
  cases h : src s (s.pixelIndex r c + off) with
  | none => simp [copyByte_of_none h]
  | some v => simp [copyByte_of_some h, curWrite_eq]

theorem copyByte_wrOob_iff : (copyByte src off r c s).wrOob = true ↔
    s.wrOob = true ∨ ((src s (s.pixelIndex r c + off)).isSome ∧ s.frame ≤ s.pixelIndex r c) := by
  cases h : src s (s.pixelIndex r c + off) with
  | none => simp [copyByte_of_none h]
  | some v => simp [copyByte_of_some h]

/-- A pixel in range takes the byte read for it, or keeps its own where none was read. -/
theorem copyByte_curByte_same {src : State → Int → Option Byte} {off : Int} {r c : Nat} {s : State}
    (hlt : s.pixelIndex r c < s.frame) : (copyByte src off r c s).curByte (s.pixelIndex r c) =
      (src s (s.pixelIndex r c + off)).getD (s.curByte (s.pixelIndex r c)) := by
  cases h : src s (s.pixelIndex r c + off) with
  | none => rw [copyByte_of_none h]; rfl
  | some v => rw [copyByte_of_some h, curWrite_curByte, if_pos ⟨rfl, hlt⟩]; rfl

end

/-! ### The pixels of a block in row-major order -/

/-- The index of pixel `k` in row-major order. -/
def State.pixelAt (s : State) (k : Nat) : Nat := s.pixelIndex (k / 8) (k % 8)

theorem pixel_row {r c : Nat} (hc : c < 8) : (8 * r + c) / 8 = r := by omega

theorem pixel_column {r c : Nat} (hc : c < 8) : (8 * r + c) % 8 = c := by omega

theorem State.pixelAt_inj {s : State} (hw : 8 ≤ s.w) {k k' : Nat} (h : s.pixelAt k = s.pixelAt k') : k = k' := by
  obtain ⟨hrow, hcol⟩ := pixelIndex_inj hw (Nat.mod_lt k (by decide)) (Nat.mod_lt k' (by decide)) h
  omega

theorem State.pixelAt_of_lt (s : State) {r c : Nat} (hc : c < 8) : s.pixelAt (8 * r + c) = s.pixelIndex r c := by
  rw [State.pixelAt, pixel_row hc, pixel_column hc]

/-- Some pixel of the block has a property: in rows and columns, and in row-major order. -/
theorem exists_pixel_iff {Q : Nat → Nat → Prop} : (∃ k < 64, Q (k / 8) (k % 8)) ↔ ∃ r < 8, ∃ c < 8, Q r c := by
  constructor
  · rintro ⟨k, hk, hQ⟩
    exact ⟨k / 8, by omega, k % 8, by omega, hQ⟩
  · rintro ⟨r, hr, c, hc, hQ⟩
    exact ⟨8 * r + c, by omega, by rwa [pixel_row hc, pixel_column hc]⟩

theorem exists_pixel_congr {P Q : Nat → Nat → Prop} (h : ∀ r < 8, ∀ c < 8, (P r c ↔ Q r c)) :
    (∃ r < 8, ∃ c < 8, P r c) ↔ ∃ r < 8, ∃ c < 8, Q r c :=
  exists_congr fun r => and_congr_right fun hr => exists_congr fun c => and_congr_right fun hc => h r hr c hc

/-! ### The first pixels of a block copy -/

/-- The block copy after its first `n` pixels. -/
def copyFirst (src : State → Int → Option Byte) (off : Int) (n : Nat) (s : State) : State :=
  ((List.range n).map fun k => (k / 8, k % 8)).foldl (fun t p => copyByte src off p.1 p.2 t) s

/-- What the block copy reads for pixel `(r, c)`: the pixels before it are copied by then. -/
def copiedByte (src : State → Int → Option Byte) (off : Int) (s : State) (r c : Nat) : Option Byte :=
  src (copyFirst src off (8 * r + c) s) (s.pixelIndex r c + off)

section
variable {src : State → Int → Option Byte} {off : Int} {s : State}

theorem blockCopy_eq_copyFirst (src : State → Int → Option Byte) (off : Int) (s : State) :
    blockCopy src off s = copyFirst src off 64 s := by
  have horder : blockPixels = (List.range 64).map fun k => (k / 8, k % 8) := by decide
  rw [blockCopy, horder, copyFirst]

theorem copyFirst_zero (src : State → Int → Option Byte) (off : Int) (s : State) : copyFirst src off 0 s = s := rfl

theorem copyFirst_succ (src : State → Int → Option Byte) (off : Int) (n : Nat) (s : State) :
    copyFirst src off (n + 1) s = copyByte src off (n / 8) (n % 8) (copyFirst src off n s) := by
  simp only [copyFirst, List.range_succ, List.map_append, List.foldl_append, List.map_cons, List.map_nil,
    List.foldl_cons, List.foldl_nil]

/-- The first pixels change `CUR` and the two latches only. -/
theorem copyFirst_eq (src : State → Int → Option Byte) (off : Int) (n : Nat) (s : State) :
    copyFirst src off n s = { s with
      cur := (copyFirst src off n s).cur
      wrOob := (copyFirst src off n s).wrOob
      srcOob := (copyFirst src off n s).srcOob } :=
  copyBytes_eq src off _ s

@[simp] theorem copyFirst_pixelIndex (n r c : Nat) : (copyFirst src off n s).pixelIndex r c = s.pixelIndex r c := by
  rw [copyFirst_eq]; rfl

@[simp] theorem copyFirst_frame (n : Nat) : (copyFirst src off n s).frame = s.frame := by
  rw [copyFirst_eq]; rfl

theorem histRead_copyFirst (n : Nat) : histRead (copyFirst src off n s) = histRead s := by
  rw [copyFirst_eq]; rfl

/-- The read of step `n` is that of its pixel. -/
theorem read_copyFirst (n : Nat) :
    src (copyFirst src off n s) ((copyFirst src off n s).pixelIndex (n / 8) (n % 8) + off)
      = copiedByte src off s (n / 8) (n % 8) := by
  rw [copiedByte, copyFirst_pixelIndex, Nat.div_add_mod]

theorem copyFirst_srcOob_iff (n : Nat) : (copyFirst src off n s).srcOob = true ↔
    s.srcOob = true ∨ ∃ k < n, copiedByte src off s (k / 8) (k % 8) = none := by
  induction n with
  | zero => simp [copyFirst_zero]
  | succ n ih => rw [copyFirst_succ, copyByte_srcOob_iff, ih, read_copyFirst (src := src), Nat.exists_lt_succ_right, or_assoc]

theorem copyFirst_wrOob_iff (n : Nat) : (copyFirst src off n s).wrOob = true ↔
    s.wrOob = true ∨
      ∃ k < n, (copiedByte src off s (k / 8) (k % 8)).isSome ∧ s.frame ≤ s.pixelIndex (k / 8) (k % 8) := by
  induction n with
  | zero => simp [copyFirst_zero]
  | succ n ih =>
    rw [copyFirst_succ, copyByte_wrOob_iff, ih, read_copyFirst (src := src), copyFirst_frame, copyFirst_pixelIndex,
      Nat.exists_lt_succ_right, or_assoc]

/-- A byte that is none of the pixels `m` to `n - 1` reads after `n` pixels as it did after `m`. -/
theorem copyFirst_curByte_stable {m n a : Nat} (hmn : m ≤ n) (h : ∀ k, m ≤ k → k < n → a ≠ s.pixelAt k) :
    (copyFirst src off n s).curByte a = (copyFirst src off m s).curByte a := by
  induction n, hmn using Nat.le_induction with
  | base => rfl
  | succ n hmn ih =>
    rw [copyFirst_succ, copyByte_curByte_other, ih fun k hk hkn => h k hk (Nat.lt_succ_of_lt hkn)]
    rw [copyFirst_pixelIndex]
    exact fun _ => h n hmn (Nat.lt_succ_self n)

/-- The pixels that are still to come read as before the copy. -/
theorem copyFirst_curByte_of_not_earlier {n a : Nat} (h : ∀ k < n, a ≠ s.pixelAt k) :
    (copyFirst src off n s).curByte a = s.curByte a :=
  copyFirst_curByte_stable (Nat.zero_le n) fun k _ => h k

/-- A pixel that was copied reads as it will after the whole copy. -/
theorem copyFirst_curByte_of_earlier (hw : 8 ≤ s.w) {k n : Nat} (hk : k < n) (hn : n ≤ 64) :
    (copyFirst src off n s).curByte (s.pixelAt k) = (blockCopy src off s).curByte (s.pixelAt k) := by
  rw [blockCopy_eq_copyFirst]
  refine (copyFirst_curByte_stable hn fun j hj _ heq => ?_).symm
  have := State.pixelAt_inj hw heq
  omega

/-! ### The whole copy -/

/-- After the whole copy a pixel in range has the byte read for it, or its own where none was read. -/
theorem blockCopy_curByte_pixel (hw : 8 ≤ s.w) {r c : Nat} (hr : r < 8) (hc : c < 8)
    (hlt : s.pixelIndex r c < s.frame) : (blockCopy src off s).curByte (s.pixelIndex r c) =
      (copiedByte src off s r c).getD (s.curByte (s.pixelIndex r c)) := by
  have hpix : s.pixelAt (8 * r + c) = s.pixelIndex r c := s.pixelAt_of_lt hc
  have hbefore : (copyFirst src off (8 * r + c) s).curByte (s.pixelIndex r c) = s.curByte (s.pixelIndex r c) :=
    copyFirst_curByte_of_not_earlier fun k hk heq => by
      have := State.pixelAt_inj hw (hpix.trans heq)
      omega
  have hcopy := copyByte_curByte_same (src := src) (off := off) (r := r) (c := c)
    (s := copyFirst src off (8 * r + c) s) (by simpa using hlt)
  rw [copyFirst_pixelIndex, hbefore] at hcopy
  rw [← hpix, ← copyFirst_curByte_of_earlier hw (Nat.lt_succ_self _) (by omega), copyFirst_succ,
    pixel_row hc, pixel_column hc, hpix]
  exact hcopy

/-- A block copy that begins with clear latches copies the bytes it reads. -/
theorem blockCopy_copies (hw : 8 ≤ s.w) (hwr : s.wrOob = false) (hsrc : s.srcOob = false) :
    Copies (copiedByte src off s) s (blockCopy src off s) := by
  refine ⟨fun r hr c hc => blockCopy_curByte_pixel hw hr hc, blockCopy_keepsOtherPixels src off s, ?_, ?_⟩
  · rw [blockCopy_eq_copyFirst, copyFirst_wrOob_iff, ← exists_pixel_iff]
    simp [hwr]
  · rw [blockCopy_eq_copyFirst, copyFirst_srcOob_iff, ← exists_pixel_iff]
    simp [hsrc]

end

/-! ### What is read -/

/-- A copy does not change `HIST`. -/
theorem copiedByte_histRead (off : Int) (s : State) (r c : Nat) : copiedByte histRead off s r c = histSource s off r c := by
  rw [copiedByte, histRead_copyFirst]; rfl

theorem isEarlierPixel_iff {s : State} {a r c : Nat} :
    isEarlierPixel s a r c = true ↔ ∃ k < 8 * r + c, s.pixelAt k = a := by
  simp [isEarlierPixel, State.pixelAt]

/-- A source in `CUR` that is an earlier pixel of the block is read as the copy leaves it, any other as it was. -/
theorem copiedByte_curRead {off : Int} {s : State} (hw : 8 ≤ s.w) {r c : Nat} (hr : r < 8) (hc : c < 8) :
    copiedByte curRead off s r c = curSource s (blockCopy curRead off s) off r c := by
  unfold copiedByte curRead curSource
  rw [copyFirst_frame]
  generalize (s.pixelIndex r c : Int) + off = i
  by_cases hin : 0 ≤ i ∧ i < s.frame
  · rw [if_pos hin, if_pos hin, Option.some_inj]
    obtain ⟨a, rfl⟩ := Int.eq_ofNat_of_zero_le hin.1
    rw [Int.toNat_natCast]
    by_cases hearlier : isEarlierPixel s a r c = true
    · obtain ⟨k, hk, rfl⟩ := isEarlierPixel_iff.mp hearlier
      rw [if_pos hearlier]
      exact copyFirst_curByte_of_earlier hw hk (by omega)
    · rw [if_neg hearlier]
      exact copyFirst_curByte_of_not_earlier fun k hk heq => hearlier (isEarlierPixel_iff.mpr ⟨k, hk, heq.symm⟩)
  · rw [if_neg hin, if_neg hin]

theorem isSome_histSource_iff {s : State} {off : Int} {r c : Nat} : (histSource s off r c).isSome ↔
    0 ≤ (s.pixelIndex r c : Int) + off ∧ (s.pixelIndex r c : Int) + off < s.frame := by
  simp [histSource]

theorem isSome_curSource_iff {s t : State} {off : Int} {r c : Nat} : (curSource s t off r c).isSome ↔
    0 ≤ (s.pixelIndex r c : Int) + off ∧ (s.pixelIndex r c : Int) + off < s.frame := by
  simp [curSource]

/-! ### The dispatch of a copy -/

/-- `t` has the pixels and the latches of `u`. -/
structure SamePixels (t u : State) : Prop where
  bytes : ∀ a, t.curByte a = u.curByte a
  wrOob : t.wrOob = u.wrOob
  srcOob : t.srcOob = u.srcOob

/-- `Copies` looks at the pixels and the latches only. -/
theorem Copies.of_samePixels {val val' : Nat → Nat → Option Byte} {s t u : State} (h : Copies val s u)
    (hsame : SamePixels t u) (hval : ∀ r < 8, ∀ c < 8, val r c = val' r c) : Copies val' s t := by
  obtain ⟨hpixels, hother, hwr, hsrc⟩ := h
  refine ⟨fun r hr c hc hlt => ?_, fun a ha => ?_, ?_, ?_⟩
  · rw [hsame.bytes, hpixels r hr c hc hlt, hval r hr c hc]
  · rw [hsame.bytes, hother a ha]
  · rw [hsame.wrOob, hwr]
    exact exists_pixel_congr fun r hr c hc => by rw [hval r hr c hc]
  · rw [hsame.srcOob, hsrc]
    exact exists_pixel_congr fun r hr c hc => by rw [hval r hr c hc]

theorem SamePixels.curSource_eq {s t u : State} (h : SamePixels t u) (off : Int) (r c : Nat) :
    curSource s t off r c = curSource s u off r c := by
  simp only [curSource, h.bytes]

/-- Where no byte is read for a pixel outside the buffer, no write is suppressed. -/
theorem Copies.wrOob_eq_false {val : Nat → Nat → Option Byte} {s t : State} (h : Copies val s t)
    (hval : ∀ r c, (val r c).isSome → s.pixelIndex r c < s.frame) : t.wrOob = false := by
  obtain ⟨-, -, hwr, -⟩ := h
  rw [Bool.eq_false_iff, ne_eq, hwr]
  rintro ⟨r, -, c, -, hsome, hout⟩
  exact absurd (hval r c hsome) (Nat.not_lt.mpr hout)

/-- A block copy whose operands fit completes with the pixels and the latches of the copy. -/
theorem dispatch_blockCopy (f : Form) (src : State → Int → Option Byte) (off : State → Int) (s : State)
    (hfits : f.length = 0 ∨ s.fits f.length) :
    ∃ t, dispatch f (fun u => blockCopy src (off u) u) s = .next t ∧ Advances f.opcode.nibble f.length s t
      ∧ SamePixels t (blockCopy src (off (clearLatches s)) (clearLatches s)) := by
  obtain ⟨t, ht, hadv, hcur, hwr, hsrc⟩ := dispatch_advances f _ s (touchesPixelsOnly_blockCopy src off) hfits
  have ⟨_, _, _, _, _, hsame⟩ := hadv
  refine ⟨t, ht, hadv, fun a => ?_, hwr, hsrc⟩
  rw [State.curByte, hcur, hsame.powerUp, State.curByte, blockCopy_eq]; rfl

/-- `val off s t r c` is what a copy from `src` at displacement `off`, begun in `s` with the latches cleared and ended in `t`,
reads for pixel `(r, c)`. -/
def CopyReads (src : State → Int → Option Byte) (val : Int → State → State → Nat → Nat → Option Byte) : Prop :=
  ∀ off s t, 8 ≤ s.w → SamePixels t (blockCopy src off (clearLatches s)) →
    ∀ r < 8, ∀ c < 8, copiedByte src off (clearLatches s) r c = val off s t r c

theorem copyReads_histRead : CopyReads histRead fun off s _ => histSource s off :=
  fun off s _ _ _ r _ c _ => copiedByte_histRead off (clearLatches s) r c

theorem copyReads_curRead : CopyReads curRead fun off s t => curSource s t off := fun off s _ hw hsame r hr c hc =>
  (copiedByte_curRead (s := clearLatches s) hw hr hc).trans (hsame.curSource_eq off r c).symm

/-- The dispatch of a copy whose operands fit copies the block; its displacement does not depend on the latches. -/
theorem dispatch_copies (f : Form) {src : State → Int → Option Byte}
    {val : Int → State → State → Nat → Nat → Option Byte} (hreads : CopyReads src val) (off : State → Int)
    (hoff : ∀ u, off (clearLatches u) = off u) {s : State} (hw : 8 ≤ s.w) (hfits : f.length = 0 ∨ s.fits f.length) :
    ∃ t, dispatch f (fun u => blockCopy src (off u) u) s = .next t ∧ Advances f.opcode.nibble f.length s t
      ∧ Copies (val (off s) s t) s t := by
  obtain ⟨t, ht, hadv, hsame⟩ := dispatch_blockCopy f src off s hfits
  rw [hoff] at hsame
  have hcopy : Copies (copiedByte src (off s) (clearLatches s)) s (blockCopy src (off s) (clearLatches s)) :=
    blockCopy_copies (s := clearLatches s) hw rfl rfl
  exact ⟨t, ht, hadv, hcopy.of_samePixels hsame (hreads (off s) s t hw hsame)⟩

/-! ### Far offsets -/

/-- From width 8 on the far displacement leads forward. -/
theorem farDisplacement_nonneg (b : Byte) {w : Int} (hw : 8 ≤ w) : 0 ≤ (farOffset b).1 + (farOffset b).2 * w := by
  obtain ⟨hlow, hhigh, -⟩ := farOffsetFollowsTheFormula b
  rcases Nat.lt_or_ge b.toNat 56 with h | h
  · obtain ⟨-, hx, -, hy, -⟩ := hlow h
    have : 0 ≤ (farOffset b).2 * w := Int.mul_nonneg hy (by omega)
    omega
  · obtain ⟨-, hx, -, hy, -⟩ := hhigh h
    have : 8 * 8 ≤ (farOffset b).2 * w := Int.mul_le_mul hy hw (by decide) (by omega)
    omega

/-- From width 32 on no pixel of the block lies at the far displacement from another: codes below 56 lead to a column 1 to 21
right of the other pixel's, in whichever row; the others lead at least one row down and at most 21 columns left. -/
theorem pixelIndex_add_far_ne (b : Byte) {s : State} (hw : 32 ≤ s.w) {r c r' c' : Nat} (hr' : r' < 8) (hc : c < 8)
    (hc' : c' < 8) :
    (s.pixelIndex r c : Int) + ((farOffset b).1 + (farOffset b).2 * (s.w : Int)) ≠ s.pixelIndex r' c' := by
  intro heq
  have hrows : ((r : Int) + (farOffset b).2 - r') * s.w = c' - c - (farOffset b).1 := by
    simp only [State.pixelIndex] at heq
    push_cast at heq
    linarith
  obtain ⟨hlow, hhigh, -⟩ := farOffsetFollowsTheFormula b
  rcases Nat.lt_or_ge b.toNat 56 with h | h
  · obtain ⟨-, hx, hx', -⟩ := hlow h
    have hdvd : (s.w : Int) ∣ (farOffset b).1 + c - c' :=
      Int.dvd_neg.mp ⟨_, by rw [Int.mul_comm, hrows]; ring⟩
    have := Int.le_of_dvd (by omega) hdvd
    omega
  · obtain ⟨-, hx, -, hy, -⟩ := hhigh h
    have : 1 * 32 ≤ ((r : Int) + (farOffset b).2 - r') * s.w :=
      Int.mul_le_mul (by omega) (by omega) (by decide) (by omega)
    omega

/-- Settles O8: the negated direction is the positive one with the two pixels exchanged. -/
theorem farCopyBlocksAreDisjointFromWidth32 : Obligations.FarCopyBlocksAreDisjointFromWidth32 := by
  intro b s _ hw r hr c hc r' hr' c' hc' off
  refine ⟨pixelIndex_add_far_ne b hw hr' hc hc', fun heq => ?_⟩
  exact pixelIndex_add_far_ne b hw hr hc' hc (eq_add_of_sub_eq heq).symm

/-! ### The opcodes -/

/-- Every instruction but `SKIP2` that has operands overruns where they do not fit. -/
theorem overrunsBelow_of_operands {i : Instr} (hi : i ≠ .skip2) (hlen : 0 < i.form.length) :
    OverrunsBelow i i.form.opcode.nibble i.form.length := by
  intro s hcut
  obtain ⟨execute, -, hexec⟩ := exec_eq_dispatch i hi
  rw [hexec]
  exact dispatch_overruns i.form execute s hlen hcut

/-- An instruction that is a block copy copies where its operands fit. -/
theorem completesWith_copy {i : Instr} {src : State → Int → Option Byte}
    {val : Int → State → State → Nat → Nat → Option Byte} (hreads : CopyReads src val) (off : State → Int)
    (hoff : ∀ u, off (clearLatches u) = off u)
    (hexec : ∀ s, exec i s = dispatch i.form (fun u => blockCopy src (off u) u) s) :
    CompletesWith i i.form.opcode.nibble i.form.length fun s t => Copies (val (off s) s t) s t := by
  intro s hw hfits
  rw [hexec]
  exact dispatch_copies i.form hreads off hoff hw (.inr hfits)

/-- Settles O14: the body of `KEEP` is empty, so `CUR` and the cleared latches stay as they are. -/
theorem keepOnlyAdvances : Obligations.KeepOnlyAdvances :=
  ⟨fun rest => encodeThenDecodeGivesTheInstruction .keep rest rfl,
    fun s => dispatch_advances .keep (fun u => u) s touchesPixelsOnly_id (.inl rfl)⟩

/-- Settles O13: source and pixel have the same index, so that no byte is read for a pixel outside the buffer. -/
theorem cphCopiesTheHistoricalBlock : Obligations.CphCopiesTheHistoricalBlock := by
  refine ⟨fun rest => encodeThenDecodeGivesTheInstruction .cph rest rfl, fun s hw => ?_⟩
  obtain ⟨t, ht, hadv, hcopy⟩ :=
    dispatch_copies .cph copyReads_histRead (fun _ => 0) (fun _ => rfl) hw (.inl rfl)
  refine ⟨t, ht, hadv, hcopy, hcopy.wrOob_eq_false fun r c hsome => ?_⟩
  have := isSome_histSource_iff.mp hsome
  omega

/-- Settles O15: the displacement leads forward, so that a pixel whose source is in the buffer is in it too. -/
theorem cpcfCopiesFromTheFarOffset : Obligations.CpcfCopiesFromTheFarOffset := by
  refine fun b => ⟨fun rest => encodeThenDecodeGivesTheInstruction (.cpcf b) rest rfl, fun s hw hfits => ?_,
    overrunsBelow_of_operands (i := .cpcf b) nofun Nat.one_pos⟩
  obtain ⟨t, ht, hadv, hcopy⟩ := completesWith_copy (i := .cpcf b) copyReads_curRead
    (fun u => displacement u (farOffset b).1 (farOffset b).2) (fun _ => rfl) (fun _ => rfl) s hw hfits
  refine ⟨t, ht, hadv, hcopy, hcopy.wrOob_eq_false fun r c hsome => ?_⟩
  have hsource := isSome_curSource_iff.mp hsome
  have hforward := farDisplacement_nonneg b (w := s.w) (by omega)
  rw [displacement] at hsource
  omega

/-- Settles O16: negating both parts of the offset negates the displacement. -/
theorem cpcbCopiesFromTheNegatedFarOffset : Obligations.CpcbCopiesFromTheNegatedFarOffset := by
  intro b
  have hoff (s : State) :
      -(farOffset b).1 - (farOffset b).2 * (s.w : Int) = displacement s (-(farOffset b).1) (-(farOffset b).2) := by
    rw [displacement, neg_mul, sub_eq_add_neg]
  simp only [hoff]
  exact ⟨fun rest => encodeThenDecodeGivesTheInstruction (.cpcb b) rest rfl,
    completesWith_copy (i := .cpcb b) copyReads_curRead _ (fun _ => rfl) fun _ => rfl,
    overrunsBelow_of_operands (i := .cpcb b) nofun Nat.one_pos⟩

/-- Settles O17: the nibbles of the byte are its remainder and its quotient by 16. -/
theorem cphnCopiesFromTheNearOffset : Obligations.CphnCopiesFromTheNearOffset := by
  intro b
  obtain ⟨hx, hy, -⟩ := nearAndWideOffsetsReadTheirFields b
  have hdecode (rest : List Byte) := encodeThenDecodeGivesTheInstruction (.cphn (lowNibble b) (highNibble b)) rest rfl
  simp only [encode, operandBytes, highNibble_append_lowNibble] at hdecode
  rw [← hx, ← hy]
  exact ⟨hdecode,
    completesWith_copy (i := .cphn (lowNibble b) (highNibble b)) copyReads_histRead _ (fun _ => rfl) fun _ => rfl,
    overrunsBelow_of_operands (i := .cphn (lowNibble b) (highNibble b)) nofun Nat.one_pos⟩

/-- Settles O18: the wide offset of a byte is the byte in two's complement. -/
theorem cphwCopiesFromTheWideOffset : Obligations.CphwCopiesFromTheWideOffset :=
  fun x y => ⟨fun rest => encodeThenDecodeGivesTheInstruction (.cphw x y) rest rfl,
    completesWith_copy (i := .cphw x y) copyReads_histRead (fun u => displacement u (wideOffset x) (wideOffset y))
      (fun _ => rfl) fun _ => rfl,
    overrunsBelow_of_operands (i := .cphw x y) nofun Nat.two_pos⟩

end Sys2Proof.Machine
end

section
/-! PROOF. The skip opcode 0x6 (43_skip_op.md R190): the result of `skip2()` by the place of the block in its row and
frame, what both ends of a skip leave unchanged, and the flags and records of each. -/

namespace Sys2Proof.Machine

/-! ### The two steps of `skip2()` -/

/-- A step from any block but the last of its row stays in the row. -/
theorem skipStep_of_inRow {s : State} {wc cx cy : Nat} (h : cx + 1 ≠ s.nbx) :
    skipStep s wc cx cy = (wc + 8, cx + 1, cy, false) :=
  if_neg h

/-- A step from the last block of a row wraps, and completes the frame in its last row. -/
theorem skipStep_of_rowEnd {s : State} {wc cx cy : Nat} (h : cx + 1 = s.nbx) :
    skipStep s wc cx cy = (wc + 8 + 7 * s.w, 0, cy + 1, decide (cy + 1 = s.nby)) :=
  if_pos h

/-- The first step wraps and completes the frame: the second is not taken. -/
theorem skip2_of_lastBlock {s : State} (hx : s.blockX + 1 = s.nbx) (hy : s.blockY + 1 = s.nby) :
    skip2 s = (s.wc + (8 + 7 * s.w), true) := by
  simp [skip2, skipStep_of_rowEnd hx, hy, Nat.add_assoc]

/-- The first step wraps into a further row, which has a second block for the second step. -/
theorem skip2_of_rowEnd {s : State} (hnbx : 2 ≤ s.nbx) (hx : s.blockX + 1 = s.nbx) (hy : s.blockY + 1 ≠ s.nby) :
    skip2 s = (s.wc + (16 + 7 * s.w), false) := by
  have hsecond : 0 + 1 ≠ s.nbx := by omega
  have hwc : s.wc + (16 + 7 * s.w) = s.wc + 8 + 7 * s.w + 8 := by omega
  simp [skip2, skipStep_of_rowEnd hx, hy, skipStep_of_inRow hsecond, hwc]

/-- The second step wraps, and completes the frame in its last row. -/
theorem skip2_of_secondToLast {s : State} (hx : s.blockX + 2 = s.nbx) :
    skip2 s = (s.wc + (16 + 7 * s.w), decide (s.blockY + 1 = s.nby)) := by
  have hfirst : s.blockX + 1 ≠ s.nbx := by omega
  simp [skip2, skipStep_of_inRow hfirst, skipStep_of_rowEnd hx, Nat.add_assoc]

/-- Neither step wraps. -/
theorem skip2_of_inRow {s : State} (hx : s.blockX + 3 ≤ s.nbx) : skip2 s = (s.wc + 16, false) := by
  have hfirst : s.blockX + 1 ≠ s.nbx := by omega
  have hsecond : s.blockX + 1 + 1 ≠ s.nbx := by omega
  simp [skip2, skipStep_of_inRow hfirst, skipStep_of_inRow hsecond]

/-- The net effect on `WC` by the place of the block, as R190 lists it. -/
def State.skipDistance (s : State) : Nat :=
  if s.blockX + 3 ≤ s.nbx then 16 else if s.blockX + 2 = s.nbx then 16 + 7 * s.w
  else if s.blockY + 1 = s.nby then 8 + 7 * s.w else 16 + 7 * s.w

/-- The frame is complete after a skip from either of its last two blocks. -/
theorem skip2_eq {s : State} (hnbx : 2 ≤ s.nbx) (hx : s.blockX < s.nbx) :
    skip2 s = (s.wc + s.skipDistance, decide (s.nbx ≤ s.blockX + 2 ∧ s.blockY + 1 = s.nby)) := by
  obtain hrow | hrow | hrow : s.blockX + 3 ≤ s.nbx ∨ s.blockX + 2 = s.nbx ∨ s.blockX + 1 = s.nbx := by omega
  · have hfar : ¬ s.nbx ≤ s.blockX + 2 := by omega
    simp [skip2_of_inRow hrow, State.skipDistance, hrow, hfar]
  · have hnear : ¬ s.blockX + 3 ≤ s.nbx := by omega
    simp [skip2_of_secondToLast hrow, State.skipDistance, hnear, hrow]
  · have hnear : ¬ s.blockX + 3 ≤ s.nbx := by omega
    have hnot : s.blockX + 2 ≠ s.nbx := by omega
    have hlast : s.nbx ≤ s.blockX + 2 := by omega
    by_cases hy : s.blockY + 1 = s.nby
    · simp [skip2_of_lastBlock hrow hy, State.skipDistance, hnear, hnot, hlast, hy]
    · simp [skip2_of_rowEnd hnbx hrow hy, State.skipDistance, hnear, hnot, hy]

/-! ### The end of a skip -/

/-- A skip to `wc` changes `WC` and, beside the latches every dispatch clears, `STATUS` and `DIAG` only. -/
def SkipsTo (wc : Nat) (s t : State) : Prop :=
  t = { clearLatches s with wc := wc, status := t.status, diag := t.diag }

theorem skipsTo_endOfDispatch (op : Nibble) (wc : Nat) (s : State) :
    SkipsTo wc s (noteWcOob op (endOfBody op { clearLatches s with wc := wc })) :=
  endOfDispatch_eq op { clearLatches s with wc := wc }

theorem skipsTo_endEarly (op : Nibble) (wc : Nat) (s : State) :
    SkipsTo wc s (endEarly (endOfBody op { clearLatches s with wc := wc })) :=
  congrArg endEarly (endOfBody_eq op { clearLatches s with wc := wc })

theorem SkipsTo.frame {wc : Nat} {s t : State} (h : SkipsTo wc s t) :
    t.wc = wc ∧ t.dp = s.dp ∧ t.dr = s.dr ∧ t.cur = s.cur ∧ t.wrOob = false ∧ t.srcOob = false ∧ SameOutside s t := by
  rw [h]
  exact ⟨rfl, rfl, rfl, rfl, rfl, rfl, sameOutside_skip s wc⟩

/-- With the latches clear, `REM_NEG` is the one flag an early end can raise beside those of R128. -/
theorem flag_skip_endEarly (op : Nibble) (wc : Nat) (s : State) (f : Flag) :
    (endEarly (endOfBody op { clearLatches s with wc := wc })).flag f
      = (f != .busy && (s.flag f || f == .early || f == .done || (f == .remNeg && decide (s.dr < 0)))) := by
  rw [flag_endEarly, flag_endOfBody, flag_skip]
  simp only [clearLatches_wrOob, clearLatches_srcOob, clearLatches_dr, Bool.false_and, Bool.or_false]
  ac_rfl

/-- With the latches clear, an early end appends no record. -/
theorem diag_skip_endEarly (op : Nibble) (wc : Nat) (s : State) :
    (endEarly (endOfBody op { clearLatches s with wc := wc })).diag = s.diag := by
  rw [endEarly_diag, diag_endOfBody]
  exact List.append_nil s.diag

/-- A skip goes where `skip2()` says and ends as it says: an early end makes no write-cursor check. -/
theorem execSkip2_skipsTo (s : State) : ∃ t, execSkip2 s = .next t ∧ SkipsTo (skip2 s).1 s t
    ∧ if (skip2 s).2 = true then
        (∀ f, t.flag f = (f != .busy && (s.flag f || f == .early || f == .done || (f == .remNeg && decide (s.dr < 0)))))
          ∧ t.diag = s.diag
      else (∀ f, t.flag f = (s.flag f || raisedBy s t f))
        ∧ t.diag = s.diag ++ dispatchRecords Opcode.skip2.nibble s t true := by
  rcases execSkip2_cases s with ⟨hearly, hexec⟩ | ⟨hgoesOn, hexec⟩
  · refine ⟨_, hexec, skipsTo_endEarly _ _ s, ?_⟩
    rw [if_pos hearly]
    exact ⟨flag_skip_endEarly _ _ s, diag_skip_endEarly _ _ s⟩
  · refine ⟨_, hexec, skipsTo_endOfDispatch _ _ s, ?_⟩
    rw [if_neg (Bool.eq_false_iff.mp hgoesOn)]
    exact ⟨flag_endOfDispatch _ _, diag_endOfDispatch _ _⟩

/-- Settles O19: `skip2_eq` says how far the skip goes and which of the two ends it has. -/
theorem skip2AdvancesTwoBlocksOrEndsTheFrame : Obligations.Skip2AdvancesTwoBlocksOrEndsTheFrame := by
  refine ⟨fun rest => encodeThenDecodeGivesTheInstruction .skip2 rest rfl, fun s hnbx hx _ => ?_⟩
  obtain ⟨t, hexec, hskips, hends⟩ := execSkip2_skipsTo s
  rw [skip2_eq hnbx hx] at hskips hends
  obtain ⟨hwc, hdp, hdr, hcur, hwr, hsrc, hsame⟩ := hskips.frame
  refine ⟨t, hexec, hwc, hdp, hdr, hcur, hwr, hsrc, hsame, ?_⟩
  simp only [decide_eq_true_eq] at hends
  rw [hdr]
  exact hends

end Sys2Proof.Machine
end

section
/-! PROOF. The two-colour pattern opcodes 0x7 and 0x8 (44_two_colour_ops.md R200 to R205). A unit of the unpacker covers a
rectangle of the block, each pixel with the colour its selector picks; the units of an opcode together cover the block; the
selector bits are then read as bits of the operand bytes. -/

namespace Sys2Proof.Machine

/-! ### Writes that cover a part of the block -/

/-- The writes of the list are those of the pixels of `region`, each with its colour. -/
def CoversRegion (s : State) (region : Nat → Nat → Prop) (col : Nat → Nat → Byte) (ws : List (Nat × Byte)) : Prop :=
  ∀ p, p ∈ ws ↔ ∃ r c, region r c ∧ p = (s.pixelIndex r c, col r c)

/-- Pixel `(r, c)` lies in the rectangle of `h` rows and `w` columns whose top left pixel is `(r0, c0)`. -/
def InRect (r0 c0 h w r c : Nat) : Prop := r0 ≤ r ∧ r < r0 + h ∧ c0 ≤ c ∧ c < c0 + w

section
variable {s : State} {col : Nat → Nat → Byte}

theorem CoversRegion.congr {region region' : Nat → Nat → Prop} {ws : List (Nat × Byte)}
    (h : CoversRegion s region col ws) (hiff : ∀ r c, region r c ↔ region' r c) : CoversRegion s region' col ws :=
  fun p => (h p).trans (by simp only [hiff])

theorem CoversRegion.append {region region' : Nat → Nat → Prop} {ws ws' : List (Nat × Byte)}
    (h : CoversRegion s region col ws) (h' : CoversRegion s region' col ws') :
    CoversRegion s (fun r c => region r c ∨ region' r c) col (ws ++ ws') := fun p => by
  rw [List.mem_append, h p, h' p]
  simp only [or_and_right, exists_or]

theorem CoversRegion.flatMap {α : Type} {region : α → Nat → Nat → Prop} {l : List α} {f : α → List (Nat × Byte)}
    (h : ∀ x ∈ l, CoversRegion s (region x) col (f x)) :
    CoversRegion s (fun r c => ∃ x ∈ l, region x r c) col (l.flatMap f) := fun p => by
  rw [List.mem_flatMap]
  constructor
  · rintro ⟨x, hx, hp⟩
    obtain ⟨r, c, hregion, rfl⟩ := (h x hx p).mp hp
    exact ⟨r, c, ⟨x, hx, hregion⟩, rfl⟩
  · rintro ⟨r, c, ⟨x, hx, hregion⟩, rfl⟩
    exact ⟨x, hx, (h x hx _).mpr ⟨r, c, hregion, rfl⟩⟩

/-- The writes of all the pixels of the block cover the block. -/
theorem CoversRegion.covers {region : Nat → Nat → Prop} {ws : List (Nat × Byte)} (h : CoversRegion s region col ws)
    (hblock : ∀ r c, region r c ↔ r < 8 ∧ c < 8) : Covers s col ws := by
  refine ⟨fun r hr c hc => (h _).mpr ⟨r, c, (hblock r c).mpr ⟨hr, hc⟩, rfl⟩, fun p hp => ?_⟩
  obtain ⟨r, c, hregion, rfl⟩ := (h p).mp hp
  obtain ⟨hr, hc⟩ := (hblock r c).mp hregion
  exact ⟨r, hr, c, hc, rfl⟩

/-! ### The units (41_pattern_unpacker.md R153 to R159) -/

variable {a r0 c0 : Nat}

theorem coversRegion_fillUnit {uw uh : Nat} {v : Byte} (ha : a = s.pixelIndex r0 c0)
    (hcol : ∀ r c, InRect r0 c0 uh uw r c → col r c = v) :
    CoversRegion s (InRect r0 c0 uh uw) col (fillUnit s.w a uw uh v) := fun p => by
  simp only [fillUnit, List.mem_flatMap, List.mem_map, List.mem_range]
  constructor
  · rintro ⟨i, hi, j, hj, rfl⟩
    have hin : InRect r0 c0 uh uw (r0 + i) (c0 + j) := ⟨by omega, by omega, by omega, by omega⟩
    exact ⟨_, _, hin, by rw [hcol _ _ hin, ha, State.pixelIndex_add]⟩
  · rintro ⟨r, c, hin, rfl⟩
    obtain ⟨hr0, hr, hc0, hc⟩ := id hin
    refine ⟨r - r0, by omega, c - c0, by omega, ?_⟩
    rw [hcol r c hin, ha, State.pixelIndex_add, Nat.add_sub_cancel' hr0, Nat.add_sub_cancel' hc0]

variable {b n : Nat} {colour : BitVec n → Byte} {word : BitVec b}

/-- Side by side the units of a run cover one rectangle; the column in it picks the unit. -/
theorem coversRegion_runUnits {m uw uh : Nat} (ha : a = s.pixelIndex r0 c0)
    (hcol : ∀ r c, InRect r0 c0 uh (m * uw) r c → col r c = colour (selector n word ((c - c0) / uw))) :
    CoversRegion s (InRect r0 c0 uh (m * uw)) col (runUnits s.w a m uw uh n colour word) := by
  have hunits : CoversRegion s (fun r c => ∃ k ∈ List.range m, InRect r0 (c0 + k * uw) uh uw r c) col
      (runUnits s.w a m uw uh n colour word) := .flatMap fun k hk => by
    rw [List.mem_range] at hk
    refine coversRegion_fillUnit (by rw [ha]; simp only [State.pixelIndex]; ring) ?_
    rintro r c ⟨hr0, hr, hc0, hc⟩
    obtain ⟨j, rfl⟩ := Nat.exists_eq_add_of_le hc0
    have hj : j < uw := by omega
    have hunit : (c0 + k * uw + j - c0) / uw = k := by
      rw [Nat.add_assoc, Nat.add_sub_cancel_left, Nat.mul_comm, Nat.mul_add_div (by omega), Nat.div_eq_of_lt hj,
        Nat.add_zero]
    have := unitColumn_lt hk hj
    rw [hcol _ _ ⟨hr0, hr, by omega, by omega⟩, hunit]
  refine hunits.congr fun r c => ⟨?_, ?_⟩
  · rintro ⟨k, hk, hr0, hr, hc0, hc⟩
    have := unitColumn_lt (List.mem_range.mp hk) (show c - (c0 + k * uw) < uw by omega)
    exact ⟨hr0, hr, by omega, by omega⟩
  · rintro ⟨hr0, hr, hc0, hc⟩
    obtain ⟨k, hk, j, hj, hcolumn⟩ := exists_unitColumn (show c - c0 < m * uw by omega)
    exact ⟨k, List.mem_range.mpr hk, hr0, hr, by omega, by omega⟩

theorem coversRegion_pu1x1 {m : Nat} (ha : a = s.pixelIndex r0 c0)
    (hcol : ∀ r c, InRect r0 c0 1 m r c → col r c = colour (selector n word (c - c0))) :
    CoversRegion s (InRect r0 c0 1 m) col (pu1x1 s.w a m n colour word) := by
  have hrun := coversRegion_runUnits (m := m) (uw := 1) (uh := 1) (word := word) (colour := colour) (col := col) ha
  simp only [Nat.mul_one, Nat.div_one] at hrun
  exact hrun hcol

theorem coversRegion_pu2x2 (ha : a = s.pixelIndex r0 c0)
    (hcol : ∀ r c, InRect r0 c0 2 8 r c → col r c = colour (selector n word ((c - c0) / 2))) :
    CoversRegion s (InRect r0 c0 2 8) col (pu2x2 s.w a n colour word) :=
  coversRegion_runUnits (m := 4) (uw := 2) ha hcol

/-- Shifting a word down by `k` selectors makes selector `k` the first. -/
theorem selector_shiftRight (n k k' : Nat) (word : BitVec b) :
    selector n (word >>> (n * k)) k' = selector n word (k + k') := by
  refine BitVec.eq_of_getLsbD_eq fun i hi => ?_
  simp only [selector, BitVec.getLsbD_extractLsb', BitVec.getLsbD_ushiftRight, Nat.mul_add, Nat.add_assoc]

/-- A quadrant takes its selectors row by row, four to a row. -/
theorem coversRegion_quadUnit (ha : a = s.pixelIndex r0 c0)
    (hcol : ∀ r c, InRect r0 c0 4 4 r c → col r c = colour (selector n word (4 * (r - r0) + (c - c0)))) :
    CoversRegion s (InRect r0 c0 4 4) col (quadUnit s.w a n colour word) := by
  have hrows : CoversRegion s (fun r c => ∃ i ∈ List.range 4, InRect (r0 + i) c0 1 4 r c) col
      (quadUnit s.w a n colour word) := .flatMap fun i hi => by
    rw [List.mem_range] at hi
    refine coversRegion_pu1x1 (by rw [ha]; simp only [State.pixelIndex]; ring) ?_
    rintro r c ⟨hr0, hr, hc0, hc⟩
    obtain rfl : r = r0 + i := by omega
    rw [hcol _ _ ⟨by omega, by omega, hc0, hc⟩, Nat.add_sub_cancel_left, Nat.mul_comm 4 n, Nat.mul_assoc,
      selector_shiftRight]
  refine hrows.congr fun r c => ⟨?_, ?_⟩
  · rintro ⟨i, hi, hr0, hr, hc0, hc⟩
    rw [List.mem_range] at hi
    exact ⟨by omega, by omega, hc0, hc⟩
  · rintro ⟨hr0, hr, hc0, hc⟩
    exact ⟨r - r0, List.mem_range.mpr (by omega), by omega, by omega, hc0, hc⟩

end

/-! ### The loops of the rules -/

theorem mem_upTo4 (q : Fin 4) : q ∈ upTo4 := by revert q; decide

theorem mem_upTo8 (r : Fin 8) : r ∈ upTo8 := by revert r; decide

/-! ### Selector bits and operand bytes (41_pattern_unpacker.md R151, R152) -/

theorem byteAt_of_lt {n k : Nat} (d : Vector Byte n) (h : k < n) : byteAt d k = d[k] := dif_pos h

theorem colours2_selector {b : Nat} (p0 p1 : Byte) (word : BitVec b) (k : Nat) :
    colours2 p0 p1 (selector 1 word k) = if word.getLsbD k then p1 else p0 := by
  have hbit : selector 1 word k = BitVec.ofBool (word.getLsbD k) :=
    BitVec.eq_of_getLsbD_eq fun i hi => by
      obtain rfl : i = 0 := by omega
      simp [selector]
  rw [colours2, hbit]
  cases word.getLsbD k <;> rfl

theorem getLsbD_word2 (b0 b1 : Byte) {k : Nat} (hk : k < 8) :
    (word2 b0 b1).getLsbD k = b0.getLsbD k ∧ (word2 b0 b1).getLsbD (8 + k) = b1.getLsbD k := by
  simp only [word2, BitVec.getLsbD_append, hk, Nat.not_lt.mpr (Nat.le_add_right 8 k), if_true, if_false,
    Nat.add_sub_cancel_left, and_self]

section
variable {n : Nat} (d : Vector Byte n) (p0 p1 : Byte)

/-- Selector `k` of one operand byte is its bit `k`. -/
theorem colours2_operandByte {j : Nat} (k : Nat) (hj : j < n) :
    colours2 p0 p1 (selector 1 d[j] k) = pick2 p0 p1 (byteAt d j) k := by
  rw [colours2_selector, byteAt_of_lt d hj, pick2]

/-- Selector `k` of two operand bytes: the first eight are the bits of the earlier byte. -/
theorem colours2_operandWord {j k : Nat} (hk : k < 16) (hj : j + 1 < n) :
    colours2 p0 p1 (selector 1 (word2 d[j] d[j + 1]) k) = pick2 p0 p1 (byteAt d (j + k / 8)) (k % 8) := by
  obtain ⟨hlow, hhigh⟩ := getLsbD_word2 d[j] d[j + 1] (Nat.mod_lt k (by decide))
  rw [colours2_selector, pick2]
  rcases Nat.lt_or_ge k 8 with h | h
  · rw [Nat.mod_eq_of_lt h] at hlow ⊢
    rw [hlow, Nat.div_eq_of_lt h, Nat.add_zero, byteAt_of_lt d]
  · have hdiv : k / 8 = 1 := by omega
    have hsplit : 8 + k % 8 = k := by omega
    rw [hsplit] at hhigh
    rw [hhigh, hdiv, byteAt_of_lt d hj]

end

/-! ### The opcodes -/

/-- An instruction whose body is a list of writes that covers the block paints the block, or overruns the payload. -/
theorem paintsBlock_of_covers {i : Instr} {meaning : State → Host.Outcome State Fault Refusal}
    {ws : State → List (Nat × Byte)} {col : Nat → Nat → Byte} (hi : i ≠ .skip2) (hlen : 0 < i.form.length)
    (hexec : ∀ s, exec i s = meaning s) (hmeaning : ∀ s, meaning s = dispatch i.form (fun u => curWrites (ws u) u) s)
    (hcov : ∀ s, Covers s col (ws s)) : PaintsBlock i i.form.opcode.nibble i.form.length col := by
  refine ⟨fun s hw hfits => ?_, overrunsBelow_of_operands hi hlen⟩
  rw [hexec, hmeaning]
  exact dispatch_paints i.form ws col s hw hfits (hcov (clearLatches s))

/-- If such an instruction is well-formed, its operand bytes decode to it. -/
theorem decodes_and_paintsBlock {i : Instr} {meaning : State → Host.Outcome State Fault Refusal}
    {ws : State → List (Nat × Byte)} {col : Nat → Nat → Byte} (hwf : i.wellFormed = true) (hi : i ≠ .skip2)
    (hlen : 0 < i.form.length) (hexec : ∀ s, exec i s = meaning s)
    (hmeaning : ∀ s, meaning s = dispatch i.form (fun u => curWrites (ws u) u) s) (hcov : ∀ s, Covers s col (ws s)) :
    (∀ rest, decode i.form.opcode.nibble (operandBytes i ++ rest) = .ok (i, rest))
      ∧ PaintsBlock i i.form.opcode.nibble i.form.length col :=
  ⟨fun rest => encodeThenDecodeGivesTheInstruction i rest hwf, paintsBlock_of_covers hi hlen hexec hmeaning hcov⟩

section
variable {n : Nat} (d : Vector Byte n) {s : State} {a r0 c0 j : Nat} {p0 p1 : Byte} {col : Nat → Nat → Byte}

/-- A pixel-row with its selectors in operand byte `j`. -/
theorem coversRegion_row (ha : a = s.pixelIndex r0 0) (hj : j < n)
    (hcol : ∀ c < 8, col r0 c = pick2 p0 p1 (byteAt d j) c) :
    CoversRegion s (InRect r0 0 1 8) col (pu1x1 s.w a 8 1 (colours2 p0 p1) d[j]) := by
  refine coversRegion_pu1x1 ha ?_
  rintro r c ⟨hr0, hr, -, hc⟩
  obtain rfl : r = r0 := by omega
  rw [hcol c (by omega), colours2_operandByte d p0 p1 _ hj, Nat.sub_zero]

/-- A quadrant with its selectors in the operand bytes `j` and `j + 1`, two pixel-rows to a byte. -/
theorem coversRegion_quadrant (ha : a = s.pixelIndex r0 c0) (hj : j + 1 < n)
    (hcol : ∀ r c, InRect r0 c0 4 4 r c →
      col r c = pick2 p0 p1 (byteAt d (j + (r - r0) / 2)) (4 * ((r - r0) % 2) + (c - c0))) :
    CoversRegion s (InRect r0 c0 4 4) col (quadUnit s.w a 1 (colours2 p0 p1) (word2 d[j] d[j + 1])) := by
  refine coversRegion_quadUnit ha fun r c hin => ?_
  rw [hcol r c hin]
  obtain ⟨hr0, hr, hc0, hc⟩ := hin
  have hbyte : (4 * (r - r0) + (c - c0)) / 8 = (r - r0) / 2 := by omega
  have hbit : (4 * (r - r0) + (c - c0)) % 8 = 4 * ((r - r0) % 2) + (c - c0) := by omega
  rw [colours2_operandWord d p0 p1 (by omega) hj, hbyte, hbit]

end

/-- Settles O20: operand byte `2 + r` holds the selectors of pixel-row `r`. -/
theorem pat2RowPaintsOneBitPerPixel : Obligations.Pat2RowPaintsOneBitPerPixel := by
  intro d hle
  refine decodes_and_paintsBlock (i := .pat2Row d) (meaning := execPat2Row d) (decide_eq_true hle)
    nofun (Nat.succ_pos _) (fun _ => rfl) (fun _ => rfl) fun s => ?_
  refine (CoversRegion.flatMap fun (k : Fin 8) _ =>
    coversRegion_row d (r0 := k) (j := 2 + k) rfl (by omega) fun _ _ => rfl).covers fun r c => ⟨?_, ?_⟩
  · rintro ⟨k, -, -, hr, -, hc⟩
    omega
  · rintro ⟨hr, hc⟩
    exact ⟨⟨r, hr⟩, mem_upTo8 _, Nat.le_refl r, Nat.lt_succ_self r, Nat.zero_le c, by omega⟩

/-- Settles O21: the selectors of cell-row `q` are the bits `4q` to `4q + 3` of the two operand bytes together. -/
theorem pat2CellPaintsOneBitPerCell : Obligations.Pat2CellPaintsOneBitPerCell := by
  intro d hlt
  refine decodes_and_paintsBlock (i := .pat2Cell d) (meaning := execPat2Cell d) (decide_eq_true hlt)
    nofun (Nat.succ_pos _) (fun _ => rfl) (fun _ => rfl) fun s => ?_
  refine (CoversRegion.flatMap fun q hq => coversRegion_pu2x2 (r0 := 2 * q) (c0 := 0) rfl ?_).covers
    fun r c => ⟨?_, ?_⟩
  · rintro r c ⟨hr0, hr, -, hc⟩
    rw [List.mem_range] at hq
    have hbyte : r / 4 = (4 * q + c / 2) / 8 := by omega
    have hbit : 4 * (r / 2 % 2) + c / 2 = (4 * q + c / 2) % 8 := by omega
    rw [hbyte, hbit, ← colours2_operandWord d d[0] d[1] (by omega) (by decide), ← selector_shiftRight, Nat.one_mul,
      Nat.sub_zero]
  · rintro ⟨q, hq, hr0, hr, -, hc⟩
    rw [List.mem_range] at hq
    omega
  · rintro ⟨hr, hc⟩
    exact ⟨r / 2, List.mem_range.mpr (by omega), by omega, by omega, by omega, by omega⟩

/-- Settles O22: quadrant `q` lies at row `4 * (q % 2)` and column `4 * (q / 2)`, and its operands are the four bytes from
`4 * q` on. -/
theorem pat2qQuadPaintsFourQuadrants : Obligations.Pat2qQuadPaintsFourQuadrants := by
  intro d hle
  refine decodes_and_paintsBlock (i := .pat2qQuad d) (meaning := execPat2qQuad d) (decide_eq_true hle)
    nofun (Nat.succ_pos _) (fun _ => rfl) (fun _ => rfl) fun s => ?_
  refine (CoversRegion.flatMap fun q _ =>
    coversRegion_quadrant d (r0 := 4 * (q.val % 2)) (c0 := 4 * (q.val / 2)) rfl (by omega) ?_).covers
      fun r c => ⟨?_, ?_⟩
  · rintro r c ⟨hr0, hr, hc0, hc⟩
    have hq : 2 * (c / 4) + r / 4 = q := by omega
    have hbyte : r % 4 / 2 = (r - 4 * (q.val % 2)) / 2 := by omega
    have hbit : 4 * (r % 2) + c % 4 = 4 * ((r - 4 * (q.val % 2)) % 2) + (c - 4 * (q.val / 2)) := by omega
    simp only [hq, hbyte, hbit]
    rw [byteAt_of_lt d (k := 4 * q.val) (by omega), byteAt_of_lt d (k := 4 * q.val + 1) (by omega)]
  · rintro ⟨q, -, hr0, hr, hc0, hc⟩
    omega
  · rintro ⟨hr, hc⟩
    obtain ⟨q, hq⟩ : ∃ q : Fin 4, q.val = 2 * (c / 4) + r / 4 := ⟨⟨_, by omega⟩, rfl⟩
    exact ⟨q, mem_upTo4 q, by omega, by omega, by omega, by omega⟩

/-- Settles O23: the four quadrants in the order top left, bottom left, top right, bottom right. -/
theorem pat2qLrPaintsLeftAndRightHalves : Obligations.Pat2qLrPaintsLeftAndRightHalves := by
  intro d hlt hle
  refine decodes_and_paintsBlock (i := .pat2qLr d) (meaning := execPat2qLr d)
    (Bool.and_eq_true_iff.mpr ⟨decide_eq_true hlt, decide_eq_true hle⟩) nofun (Nat.succ_pos _) (fun _ => rfl)
    (fun _ => rfl) fun s => ?_
  have hlower {r : Nat} (hr : 4 ≤ r) (j : Nat) : j + r / 2 = j + 2 + (r - 4) / 2 ∧ r % 2 = (r - 4) % 2 := by omega
  refine (CoversRegion.append (.append (.append
    (coversRegion_quadrant d (r0 := 0) (c0 := 0) (j := 2) s.wc_eq_pixelIndex (by decide) ?_)
    (coversRegion_quadrant d (r0 := 4) (c0 := 0) (j := 4) rfl (by decide) ?_))
    (coversRegion_quadrant d (r0 := 0) (c0 := 4) (j := 8) (by rw [State.pixelIndex, Nat.zero_mul, Nat.add_zero])
      (by decide) ?_))
    (coversRegion_quadrant d (r0 := 4) (c0 := 4) (j := 10) rfl (by decide) ?_)).covers fun r c => ?_
  · rintro r c ⟨-, -, -, hc⟩
    rw [if_pos hc, Nat.sub_zero, Nat.sub_zero]
  · rintro r c ⟨hr, -, -, hc⟩
    obtain ⟨hbyte, hparity⟩ := hlower hr 2
    rw [if_pos hc, hbyte, hparity, Nat.sub_zero]
  · rintro r c ⟨-, -, hc, -⟩
    rw [if_neg (Nat.not_lt.mpr hc), Nat.sub_zero]
  · rintro r c ⟨hr, -, hc, -⟩
    obtain ⟨hbyte, hparity⟩ := hlower hr 8
    rw [if_neg (Nat.not_lt.mpr hc), hbyte, hparity]
  · simp only [InRect]
    omega

/-- Settles O24: operand bytes 2 to 5 hold the selectors of the upper four pixel-rows, bytes 8 to 11 those of the lower. -/
theorem pat2qTbPaintsTopAndBottomHalves : Obligations.Pat2qTbPaintsTopAndBottomHalves := by
  intro d hlt hlt'
  refine decodes_and_paintsBlock (i := .pat2qTb d) (meaning := execPat2qTb d)
    (Bool.and_eq_true_iff.mpr ⟨decide_eq_true hlt, decide_eq_true hlt'⟩) nofun (Nat.succ_pos _) (fun _ => rfl)
    (fun _ => rfl) fun s => ?_
  refine (CoversRegion.append
    (.flatMap fun (k : Fin 4) _ => coversRegion_row d (r0 := k) (j := 2 + k) rfl (by omega) fun c _ => if_pos k.isLt)
    (.flatMap fun (k : Fin 4) _ => coversRegion_row d (r0 := 4 + k) (j := 8 + k) rfl (by omega) fun c _ => ?_)).covers
      fun r c => ⟨?_, ?_⟩
  · rw [if_neg (Nat.not_lt.mpr (Nat.le_add_right 4 k)), ← Nat.add_assoc]
  · rintro (⟨k, -, -, hr, -, hc⟩ | ⟨k, -, -, hr, -, hc⟩) <;> omega
  · rintro ⟨hr, hc⟩
    obtain ⟨k, hk⟩ : ∃ k : Fin 4, k.val = r % 4 := ⟨⟨_, by omega⟩, rfl⟩
    rcases Nat.lt_or_ge r 4 with hupper | hlower
    · exact .inl ⟨k, mem_upTo4 k, by omega, by omega, by omega, by omega⟩
    · exact .inr ⟨k, mem_upTo4 k, by omega, by omega, by omega, by omega⟩

end Sys2Proof.Machine
end

section
/-! PROOF. The four-colour pattern opcodes 0x9 and 0xA (45_four_colour_ops.md R220 to R227). A selector is a bit pair of one
operand byte and picks one of four consecutive operand bytes; the units of an opcode together cover the block, in bands of
pixel-rows (0x9 and `PAT4Q.TB`) or in quadrants. -/

namespace Sys2Proof.Machine

/-! ### Selectors of two bits and operand bytes (41_pattern_unpacker.md R151, R152) -/

theorem toNat_selector {b : Nat} (n : Nat) (word : BitVec b) (k : Nat) :
    (selector n word k).toNat = word.toNat / 2 ^ (n * k) % 2 ^ n := by
  rw [selector, BitVec.extractLsb'_toNat, Nat.shiftRight_eq_div_pow]

/-- The first four selectors of a word are those of its first byte. -/
theorem selector_append_low {m k : Nat} (word : BitVec m) (b : Byte) (hk : k < 4) :
    selector 2 (word ++ b) k = selector 2 b k := by
  refine BitVec.eq_of_getLsbD_eq fun i hi => ?_
  have hbit : 2 * k + i < 8 := by omega
  simp only [selector, BitVec.getLsbD_extractLsb', BitVec.getLsbD_append, hbit, if_true]

/-- After the first four selectors of a word come those of the bytes after the first. -/
theorem selector_append_high {m : Nat} (word : BitVec m) (b : Byte) (k : Nat) :
    selector 2 (word ++ b) (4 + k) = selector 2 word k := by
  refine BitVec.eq_of_getLsbD_eq fun i _ => ?_
  have hbit : 2 * (4 + k) + i = 8 + (2 * k + i) := by omega
  simp only [selector, BitVec.getLsbD_extractLsb', BitVec.getLsbD_append, hbit, Nat.not_lt.mpr (Nat.le_add_right 8 _),
    if_false, Nat.add_sub_cancel_left]

section
variable {n : Nat} (d : Vector Byte n)

theorem selector_operandWord2 {j j' k : Nat} (hj : j' = j + 1) (hj' : j' < n) (hk : k < 8) :
    selector 2 (word2 d[j] d[j']) k = selector 2 (byteAt d (j + k / 4)) (k % 4) := by
  subst hj
  rcases Nat.lt_or_ge k 4 with hlow | hhigh
  · rw [Nat.div_eq_of_lt hlow, Nat.mod_eq_of_lt hlow, byteAt_of_lt d (by omega)]
    exact selector_append_low _ _ hlow
  · obtain ⟨c, rfl⟩ := Nat.exists_eq_add_of_le hhigh
    have hbyte : (4 + c) / 4 = 1 := by omega
    have hpair : (4 + c) % 4 = c := by omega
    rw [hbyte, hpair, byteAt_of_lt d hj']
    exact selector_append_high _ _ c

theorem selector_operandWord4 {j i k : Nat} (hj : j + 3 < n) (hi : i < 4) (hk : k < 4) :
    selector 2 (word4 d[j] d[j + 1] d[j + 2] d[j + 3]) (4 * i + k) = selector 2 (byteAt d (j + i)) k := by
  rw [byteAt_of_lt d (by omega), word4]
  match i, hi with
  | 0, _ => rw [Nat.mul_zero, Nat.zero_add, selector_append_low _ _ hk]; rfl
  | 1, _ => rw [Nat.mul_one, selector_append_high, selector_append_low _ _ hk]
  | 2, _ =>
    have hsplit : 4 * 2 + k = 4 + (4 + k) := by omega
    rw [hsplit, selector_append_high, selector_append_high, selector_append_low _ _ hk]
  | 3, _ =>
    have hsplit : 4 * 3 + k = 4 + (4 + (4 + k)) := by omega
    rw [hsplit, selector_append_high, selector_append_high, selector_append_high]

variable {base : Nat} (hbase : base + 3 < n)
include hbase

/-- Selector value `v` picks the colour `v` bytes after the first. -/
theorem colours4_operands (v : BitVec 2) :
    colours4 d[base] d[base + 1] d[base + 2] d[base + 3] v = byteAt d (base + v.toNat) := by
  have hcases : ∀ v : BitVec 2, v = 0 ∨ v = 1 ∨ v = 2 ∨ v = 3 := by decide
  have hv : base + v.toNat < n := by omega
  rw [byteAt_of_lt d hv]
  obtain rfl | rfl | rfl | rfl := hcases v <;> rfl

theorem colours4_selector (pattern : Byte) (k : Nat) :
    colours4 d[base] d[base + 1] d[base + 2] d[base + 3] (selector 2 pattern k) = pick4 d base pattern k := by
  have hpow : 2 ^ (2 * k) = 4 ^ k := Nat.pow_mul 2 2 k
  rw [colours4_operands d hbase, toNat_selector, hpow]
  rfl

end

/-! ### The units with their operands -/

section
variable {n : Nat} (d : Vector Byte n) {s : State} {a r0 c0 base j : Nat} {col : Nat → Nat → Byte}

/-- Eight units one pixel wide take their selectors from two operand bytes, four from each. -/
theorem coversRegion_narrowUnits {j' uh : Nat} (ha : a = s.pixelIndex r0 0) (hbase : base + 3 < n) (hj : j' = j + 1)
    (hj' : j' < n) (hcol : ∀ r c, InRect r0 0 uh 8 r c → col r c = pick4 d base (byteAt d (j + c / 4)) (c % 4)) :
    CoversRegion s (InRect r0 0 uh 8) col
      (runUnits s.w a 8 1 uh 2 (colours4 d[base] d[base + 1] d[base + 2] d[base + 3]) (word2 d[j] d[j'])) := by
  refine coversRegion_runUnits (m := 8) (uw := 1) ha fun r c hin => ?_
  obtain ⟨-, -, -, hc⟩ := id hin
  rw [hcol r c hin, Nat.div_one, Nat.sub_zero, selector_operandWord2 d hj hj' (by omega), colours4_selector d hbase]

/-- Four units two pixels wide take their selectors from one operand byte. -/
theorem coversRegion_wideUnits {uh : Nat} (ha : a = s.pixelIndex r0 0) (hbase : base + 3 < n) (hj : j < n)
    (hcol : ∀ r c, InRect r0 0 uh 8 r c → col r c = pick4 d base (byteAt d j) (c / 2)) :
    CoversRegion s (InRect r0 0 uh 8) col
      (runUnits s.w a 4 2 uh 2 (colours4 d[base] d[base + 1] d[base + 2] d[base + 3]) d[j]) := by
  refine coversRegion_runUnits (m := 4) (uw := 2) ha fun r c hin => ?_
  rw [hcol r c hin, Nat.sub_zero, colours4_selector d hbase, byteAt_of_lt d hj]

/-- A quadrant takes its selectors from four operand bytes, one to a row. -/
theorem coversRegion_fourColourQuadrant (ha : a = s.pixelIndex r0 c0) (hbase : base + 3 < n) (hj : j + 3 < n)
    (hcol : ∀ r c, InRect r0 c0 4 4 r c → col r c = pick4 d base (byteAt d (j + (r - r0))) (c - c0)) :
    CoversRegion s (InRect r0 c0 4 4) col
      (quadUnit s.w a 2 (colours4 d[base] d[base + 1] d[base + 2] d[base + 3])
        (word4 d[j] d[j + 1] d[j + 2] d[j + 3])) := by
  refine coversRegion_quadUnit ha fun r c hin => ?_
  obtain ⟨hr0, hr, hc0, hc⟩ := id hin
  rw [hcol r c hin, selector_operandWord4 d hj (by omega) (by omega), colours4_selector d hbase]

/-! ### Bands and quadrants of the block -/

/-- Bands of `uh` pixel-rows, one below the other, cover one rectangle. -/
theorem CoversRegion.bands {m uh : Nat} {l : List (Fin m)} {f : Fin m → List (Nat × Byte)} {top : Fin m → Nat}
    (hl : ∀ k, k ∈ l) (htop : ∀ k, top k = r0 + k * uh)
    (h : ∀ k, CoversRegion s (InRect (top k) 0 uh 8) col (f k)) :
    CoversRegion s (InRect r0 0 (m * uh) 8) col (l.flatMap f) := by
  refine (CoversRegion.flatMap fun k _ => h k).congr fun r c => ⟨?_, ?_⟩
  · rintro ⟨k, -, hr0, hr, hc0, hc⟩
    rw [htop] at hr0 hr
    have := unitColumn_lt k.isLt (show r - (r0 + k * uh) < uh by omega)
    exact ⟨by omega, by omega, hc0, hc⟩
  · rintro ⟨hr0, hr, hc0, hc⟩
    obtain ⟨k, hk, i, hi, hrow⟩ := exists_unitColumn (show r - r0 < m * uh by omega)
    have htop : top ⟨k, hk⟩ = r0 + k * uh := htop ⟨k, hk⟩
    exact ⟨⟨k, hk⟩, hl _, by omega, by omega, hc0, hc⟩

/-- Writes that cover the rectangle of all the block's rows and columns cover the block. -/
theorem CoversRegion.covers_rect {ws : List (Nat × Byte)} (h : CoversRegion s (InRect 0 0 8 8) col ws) :
    Covers s col ws :=
  h.covers fun r c => by simp only [InRect]; omega

/-- Quadrant `q` of the block, in the order top left, bottom left, top right, bottom right. -/
theorem inRect_quadrant_iff {q r c : Nat} (hq : q < 4) :
    InRect (4 * (q % 2)) (4 * (q / 2)) 4 4 r c ↔ r < 8 ∧ c < 8 ∧ 2 * (c / 4) + r / 4 = q := by
  simp only [InRect]
  omega

end

/-! ### The opcodes -/

/-- Settles O25: the bands are the pixel-rows, each with two pattern bytes. -/
theorem pat4U1x1PaintsTwoBitsPerPixel : Obligations.Pat4U1x1PaintsTwoBitsPerPixel := by
  intro d hle hle'
  refine decodes_and_paintsBlock (i := .pat4U1x1 d) (meaning := execPat4U1x1 d)
    (Bool.and_eq_true_iff.mpr ⟨decide_eq_true hle, decide_eq_true hle'⟩) nofun (Nat.succ_pos _) (fun _ => rfl)
    (fun _ => rfl) fun s => ?_
  refine (CoversRegion.bands (r0 := 0) (uh := 1) (top := fun k => k) mem_upTo8 (by omega) fun k =>
    coversRegion_narrowUnits d (base := 0) rfl (by decide) (by omega) (by omega) ?_).covers_rect
  rintro r c ⟨hr0, hr, -, -⟩
  obtain rfl : r = k := by omega
  rfl

/-- Settles O26: a band is a row of four cells, with one pattern byte. -/
theorem pat4U2x2PaintsTwoBitsPerCell : Obligations.Pat4U2x2PaintsTwoBitsPerCell := by
  intro d hle hlt
  refine decodes_and_paintsBlock (i := .pat4U2x2 d) (meaning := execPat4U2x2 d)
    (Bool.and_eq_true_iff.mpr ⟨decide_eq_true hle, decide_eq_true hlt⟩) nofun (Nat.succ_pos _) (fun _ => rfl)
    (fun _ => rfl) fun s => ?_
  refine (CoversRegion.bands (r0 := 0) (uh := 2) (top := fun q => 2 * q) mem_upTo4 (by omega) fun q =>
    coversRegion_wideUnits d (base := 0) rfl (by decide) (by omega) ?_).covers_rect
  rintro r c ⟨hr0, hr, -, -⟩
  have hband : r / 2 = q := by omega
  rw [hband]

/-- Settles O27: the bands are the pixel-rows, each with one pattern byte. -/
theorem pat4U2x1PaintsWideUnits : Obligations.Pat4U2x1PaintsWideUnits := by
  intro d hlt hle
  refine decodes_and_paintsBlock (i := .pat4U2x1 d) (meaning := execPat4U2x1 d)
    (Bool.and_eq_true_iff.mpr ⟨decide_eq_true hlt, decide_eq_true hle⟩) nofun (Nat.succ_pos _) (fun _ => rfl)
    (fun _ => rfl) fun s => ?_
  refine (CoversRegion.bands (r0 := 0) (uh := 1) (top := fun k => k) mem_upTo8 (by omega) fun k =>
    coversRegion_wideUnits d (base := 0) rfl (by decide) (by omega) ?_).covers_rect
  rintro r c ⟨hr0, hr, -, -⟩
  obtain rfl : r = k := by omega
  rfl

/-- Settles O28: a band is a row-pair, with two pattern bytes. -/
theorem pat4U1x2PaintsTallUnits : Obligations.Pat4U1x2PaintsTallUnits := by
  intro d hlt hlt'
  refine decodes_and_paintsBlock (i := .pat4U1x2 d) (meaning := execPat4U1x2 d)
    (Bool.and_eq_true_iff.mpr ⟨decide_eq_true hlt, decide_eq_true hlt'⟩) nofun (Nat.succ_pos _) (fun _ => rfl)
    (fun _ => rfl) fun s => ?_
  refine (CoversRegion.bands (r0 := 0) (uh := 2) (top := fun q => 2 * q) mem_upTo4 (by omega) fun q =>
    coversRegion_narrowUnits d (base := 0) rfl (by decide) (by omega) (by omega) ?_).covers_rect
  rintro r c ⟨hr0, hr, -, -⟩
  have hband : r / 2 = q := by omega
  rw [hband]

/-- Settles O29: the operands of quadrant `q` are the eight bytes from `8 * q` on, four colours and then a byte per row. -/
theorem pat4qQuadPaintsFourQuadrants : Obligations.Pat4qQuadPaintsFourQuadrants := by
  intro d hle
  refine decodes_and_paintsBlock (i := .pat4qQuad d) (meaning := execPat4qQuad d) (decide_eq_true hle)
    nofun (Nat.succ_pos _) (fun _ => rfl) (fun _ => rfl) fun s => ?_
  refine (CoversRegion.flatMap fun (q : Fin 4) _ =>
    coversRegion_fourColourQuadrant d (r0 := 4 * (q.val % 2)) (c0 := 4 * (q.val / 2)) (j := 8 * q.val + 4) rfl
      (by omega) (by omega) ?_).covers fun r c => ⟨?_, ?_⟩
  · rintro r c ⟨hr0, hr, hc0, hc⟩
    have hq : 2 * (c / 4) + r / 4 = q := by omega
    have hrow : r % 4 = r - 4 * (q.val % 2) := by omega
    have hcolumn : c % 4 = c - 4 * (q.val / 2) := by omega
    simp only [hq, hrow, hcolumn]
  · rintro ⟨q, -, hin⟩
    obtain ⟨hr, hc, -⟩ := (inRect_quadrant_iff q.isLt).mp hin
    exact ⟨hr, hc⟩
  · rintro ⟨hr, hc⟩
    have hq : 2 * (c / 4) + r / 4 < 4 := by omega
    exact ⟨⟨_, hq⟩, mem_upTo4 _, (inRect_quadrant_iff hq).mpr ⟨hr, hc, rfl⟩⟩

/-- Settles O30: the four quadrants in the order top left, bottom left, top right, bottom right. -/
theorem pat4qLrPaintsLeftAndRightHalves : Obligations.Pat4qLrPaintsLeftAndRightHalves := by
  intro d hlt hle
  refine decodes_and_paintsBlock (i := .pat4qLr d) (meaning := execPat4qLr d)
    (Bool.and_eq_true_iff.mpr ⟨decide_eq_true hlt, decide_eq_true hle⟩) nofun (Nat.succ_pos _) (fun _ => rfl)
    (fun _ => rfl) fun s => ?_
  refine (CoversRegion.append (.append (.append
    (coversRegion_fourColourQuadrant d (base := 0) (r0 := 0) (c0 := 0) (j := 4) s.wc_eq_pixelIndex
      (by decide) (by decide) ?_)
    (coversRegion_fourColourQuadrant d (base := 0) (r0 := 4) (c0 := 0) (j := 8) rfl (by decide) (by decide) ?_))
    (coversRegion_fourColourQuadrant d (base := 12) (r0 := 0) (c0 := 4) (j := 16)
      (by rw [State.pixelIndex, Nat.zero_mul, Nat.add_zero]) (by decide) (by decide) ?_))
    (coversRegion_fourColourQuadrant d (base := 12) (r0 := 4) (c0 := 4) (j := 20) rfl
      (by decide) (by decide) ?_)).covers fun r c => ?_
  · rintro r c ⟨-, -, -, hc⟩
    rw [if_pos hc, Nat.sub_zero, Nat.sub_zero]
  · rintro r c ⟨hr, -, -, hc⟩
    have hbyte : 4 + r = 8 + (r - 4) := by omega
    rw [if_pos hc, hbyte, Nat.sub_zero]
  · rintro r c ⟨-, -, hc, -⟩
    rw [if_neg (Nat.not_lt.mpr hc), Nat.sub_zero]
  · rintro r c ⟨hr, -, hc, -⟩
    have hbyte : 16 + r = 20 + (r - 4) := by omega
    rw [if_neg (Nat.not_lt.mpr hc), hbyte]
  · simp only [InRect]
    omega

/-- Settles O31: each half is a band of four pixel-rows, its pattern bytes after its colours. -/
theorem pat4qTbPaintsTopAndBottomHalves : Obligations.Pat4qTbPaintsTopAndBottomHalves := by
  intro d hlt hlt'
  refine decodes_and_paintsBlock (i := .pat4qTb d) (meaning := execPat4qTb d)
    (Bool.and_eq_true_iff.mpr ⟨decide_eq_true hlt, decide_eq_true hlt'⟩) nofun (Nat.succ_pos _) (fun _ => rfl)
    (fun _ => rfl) fun s => ?_
  refine (CoversRegion.append
    (.bands (r0 := 0) (uh := 1) (top := fun k => k) mem_upTo4 (by omega) fun k =>
      coversRegion_narrowUnits d (base := 0) rfl (by decide) (by omega) (by omega) ?_)
    (.bands (r0 := 4) (uh := 1) (top := fun k => 4 + k) mem_upTo4 (by omega) fun k =>
      coversRegion_narrowUnits d (base := 12) rfl (by decide) (by omega) (by omega) ?_)).covers fun r c => ?_
  · rintro r c ⟨hr0, hr, -, -⟩
    obtain rfl : r = k := by omega
    exact if_pos k.isLt
  · rintro r c ⟨hr0, hr, -, -⟩
    have hlower : ¬ r < 4 := by omega
    have hbyte : 8 + 2 * r = 16 + 2 * k := by omega
    rw [if_neg hlower, hbyte]
  · simp only [InRect]
    omega

end Sys2Proof.Machine
end

section
/-! PROOF. The raw and fill opcodes 0xB to 0xF (46_raw_fill_ops.md R240 to R244). No selectors here: the writes are those of
single pixels, or of filled rectangles with one operand byte each, which together cover the block. -/

namespace Sys2Proof.Machine

/-! ### Writes of single pixels -/

/-- One write to a pixel for each element of a list covers the pixels the elements stand for. -/
theorem CoversRegion.map {s : State} {col : Nat → Nat → Byte} {α : Type} {l : List α} {f : α → Nat × Byte}
    {row column : α → Nat}
    (h : ∀ x ∈ l, f x = (s.pixelIndex (row x) (column x), col (row x) (column x))) :
    CoversRegion s (fun r c => ∃ x ∈ l, row x = r ∧ column x = c) col (l.map f) := fun p => by
  rw [List.mem_map]
  constructor
  · rintro ⟨x, hx, rfl⟩
    exact ⟨row x, column x, ⟨x, hx, rfl, rfl⟩, h x hx⟩
  · rintro ⟨_, _, ⟨x, hx, rfl, rfl⟩, rfl⟩
    exact ⟨x, hx, h x hx⟩

theorem mem_blockPixels_iff {r c : Nat} : (r, c) ∈ blockPixels ↔ r < 8 ∧ c < 8 := by
  refine ⟨blockPixels_lt, fun ⟨hr, hc⟩ => ?_⟩
  exact List.mem_flatMap.mpr ⟨r, List.mem_range.mpr hr, List.mem_map_of_mem (List.mem_range.mpr hc)⟩

theorem mem_upTo2 (b : Fin 2) : b ∈ upTo2 := by revert b; decide

/-! ### The opcodes -/

/-- Settles O32: the write of row `r` and column `c` is that of pixel `(r, c)`. -/
theorem rawPaintsItsBytesRowMajor : Obligations.RawPaintsItsBytesRowMajor := by
  intro d
  refine decodes_and_paintsBlock (i := .raw d) (meaning := execRaw d) rfl nofun (Nat.succ_pos _) (fun _ => rfl)
    (fun _ => rfl) fun s => ?_
  refine (CoversRegion.flatMap fun (k : Fin 8) _ =>
    CoversRegion.map (row := fun _ => k) (column := fun j : Fin 8 => j) fun j _ => ?_).covers fun r c => ⟨?_, ?_⟩
  · rw [byteAt_of_lt d]
  · rintro ⟨k, -, j, -, rfl, rfl⟩
    exact ⟨k.isLt, j.isLt⟩
  · rintro ⟨hr, hc⟩
    exact ⟨⟨r, hr⟩, mem_upTo8 _, ⟨c, hc⟩, mem_upTo8 _, rfl, rfl⟩

/-- Settles O33: cell `(p, q)` is the 2x2 square at row `2 * p` and column `2 * q`. -/
theorem raw2PaintsTwoByTwoCells : Obligations.Raw2PaintsTwoByTwoCells := by
  intro d
  refine decodes_and_paintsBlock (i := .raw2 d) (meaning := execRaw2 d) rfl nofun (Nat.succ_pos _) (fun _ => rfl)
    (fun _ => rfl) fun s => ?_
  refine (CoversRegion.flatMap fun (p : Fin 4) _ => .flatMap fun (q : Fin 4) _ =>
    coversRegion_fillUnit (r0 := 2 * p) (c0 := 2 * q) rfl ?_).covers fun r c => ⟨?_, ?_⟩
  · rintro r c ⟨hr0, hr, hc0, hc⟩
    have hp : r / 2 = p := by omega
    have hq : c / 2 = q := by omega
    rw [hp, hq, byteAt_of_lt d]
  · rintro ⟨p, -, q, -, -, hr, -, hc⟩
    omega
  · rintro ⟨hr, hc⟩
    exact ⟨⟨r / 2, by omega⟩, mem_upTo4 _, ⟨c / 2, by omega⟩, mem_upTo4 _, by
      simp only [InRect]
      omega⟩

/-- Settles O34: a band is two quadrants side by side. -/
theorem raw4PaintsFourQuadrants : Obligations.Raw4PaintsFourQuadrants := by
  intro d
  refine decodes_and_paintsBlock (i := .raw4 d) (meaning := execRaw4 d) rfl nofun (Nat.succ_pos _) (fun _ => rfl)
    (fun _ => rfl) fun s => ?_
  refine (CoversRegion.bands (r0 := 0) (uh := 4) (top := fun b => 4 * b) mem_upTo2 (by omega) fun b =>
    (CoversRegion.append (coversRegion_fillUnit (r0 := 4 * b) (c0 := 0) rfl ?_)
      (coversRegion_fillUnit (r0 := 4 * b) (c0 := 4) rfl ?_)).congr fun r c => ?_).covers_rect
  · rintro r c ⟨hr0, hr, -, hc⟩
    have hbyte : 2 * (r / 4) + c / 4 = 2 * b := by omega
    rw [hbyte, byteAt_of_lt d]
  · rintro r c ⟨hr0, hr, hc0, hc⟩
    have hbyte : 2 * (r / 4) + c / 4 = 2 * b + 1 := by omega
    rw [hbyte, byteAt_of_lt d]
  · simp only [InRect]
    omega

/-- Settles O35: the one filled rectangle is the block. -/
theorem fillPaintsOneColour : Obligations.FillPaintsOneColour := by
  intro v
  refine decodes_and_paintsBlock (i := .fill v) (meaning := execFill v) rfl nofun (Nat.succ_pos _) (fun _ => rfl)
    (fun _ => rfl) fun s => ?_
  exact (coversRegion_fillUnit s.wc_eq_pixelIndex fun _ _ _ => rfl).covers_rect

/-- Settles O36: the writes are those of the pixels of the block, each with the colour of its parity. -/
theorem dithPaintsACheckerboard : Obligations.DithPaintsACheckerboard := by
  intro c0 c1
  refine decodes_and_paintsBlock (i := .dith c0 c1) (meaning := execDith c0 c1) rfl nofun (Nat.succ_pos _)
    (fun _ => rfl) (fun _ => rfl) fun s => ?_
  refine (CoversRegion.map (row := Prod.fst) (column := Prod.snd) fun _ _ => rfl).covers fun r c => ?_
  rw [← mem_blockPixels_iff]
  constructor
  · rintro ⟨⟨_, _⟩, hp, rfl, rfl⟩
    exact hp
  · exact fun hp => ⟨(r, c), hp, rfl, rfl⟩

end Sys2Proof.Machine
end

section
/-! PROOF. The exception of 60_exceptions.md R261 and the reset of 70_reset_and_hazards.md R300. The decoder refuses the
payload exactly where the bytes it may read end before those of the form they select, so an instruction that was decoded
has its operands and cannot overrun any more. -/

namespace Sys2Proof

/-! ### When the decoder refuses -/

/-- The operands of a form can be read exactly where there are as many bytes as R97 says. -/
theorem isSome_readOperands_iff {f : Form} {p : List Byte} : (readOperands f p).isSome = true ↔ f.length ≤ p.length := by
  cases f <;> simp [readOperands, takeBytes_isSome, Form.length]

theorem readOperands_eq_none_iff {f : Form} {p : List Byte} : readOperands f p = none ↔ p.length < f.length := by
  rw [← Option.not_isSome_iff_eq_none, isSome_readOperands_iff, Nat.not_le]

/-- The decoder refuses where no form can be told, and where the operands of the form are not all there. -/
theorem decode_eq_error_iff {v : Nibble} {p : List Byte} : decode v p = .error .payloadTooShort ↔
    ∀ f, formOf (Opcode.ofNibble v) p = some f → p.length < f.length := by
  simp only [← readOperands_eq_none_iff, ← Option.bind_eq_none_iff]
  rcases h : (formOf (Opcode.ofNibble v) p).bind (fun f => readOperands f p) with _ | r <;> simp [decode, h]

theorem length_le_of_decode {v : Nibble} {p rest : List Byte} {i : Instr} (h : decode v p = .ok (i, rest)) :
    i.form.length ≤ p.length := by
  obtain ⟨-, hp⟩ := decode_eq_ok_iff.mp h
  exact isSome_readOperands_iff.mp (Option.isSome_of_eq_some (readOperands_eq_some_iff.mpr ⟨rfl, hp⟩))

theorem Form.length_le_maxOperands (f : Form) : f.length ≤ maxOperands := by
  cases f <;> decide

namespace Machine

/-! ### The payload window and `PAY_LEN` -/

/-- `d[k]` of the block to come, as a number: the payload byte at `DP + k` (30_encoding.md R95). -/
def State.operand (s : State) (k : Nat) : Nat := (s.payByte (s.dp + k)).toNat

/-- The form has operands, and not all of them lie before `PAY_LEN` (20_memory.md R69). -/
def FormCutOff (s : State) (f : Form) : Prop := f.length ≠ 0 ∧ ¬ s.fits f.length

/-- The window ends before a form's operands exactly where the payload does: it shows as many bytes as any form has. -/
theorem length_payloadWindow_lt_iff {s : State} {f : Form} : (payloadWindow s).length < f.length ↔ FormCutOff s f := by
  have hmax := f.length_le_maxOperands
  rw [length_payloadWindow, FormCutOff, State.fits]
  omega

theorem State.fits.mono {s : State} {m n : Nat} (h : s.fits n) (hmn : m ≤ n) : s.fits m :=
  (Nat.add_le_add_left hmn s.dp).trans h

/-- The comparison of two bytes of the window, the later one being the one that may be missing. -/
theorem byteLe_payloadWindow_cases (s : State) {i j : Nat} (hij : i < j) (hj : j < maxOperands) :
    (¬ s.fits (j + 1) ∧ byteLe (payloadWindow s) i j = none)
    ∨ (s.fits (j + 1) ∧ s.operand i ≤ s.operand j ∧ byteLe (payloadWindow s) i j = some true)
    ∨ (s.fits (j + 1) ∧ s.operand j < s.operand i ∧ byteLe (payloadWindow s) i j = some false) := by
  by_cases hfits : s.fits (j + 1)
  · have hj' : s.dp + j < s.payLen.toNat := hfits
    have hi' : s.dp + i < s.payLen.toNat := by omega
    have hcmp := byteLe_of_getElem (getElem?_payloadWindow hi' (hij.trans hj)) (getElem?_payloadWindow hj' hj)
    rw [hcmp]
    rcases Nat.lt_or_ge (s.operand j) (s.operand i) with hlt | hle
    · exact .inr (.inr ⟨hfits, hlt, congrArg some (decide_eq_false (Nat.not_le.mpr hlt))⟩)
    · exact .inr (.inl ⟨hfits, hle, congrArg some (decide_eq_true hle)⟩)
  · refine .inl ⟨hfits, byteLe_of_length_le ?_⟩
    rw [length_payloadWindow]
    unfold State.fits at hfits
    omega

/-! ### The condition of the rules, opcode by opcode -/

/-- The operands are cut off for every form the window can still select: where it selects none this holds of itself. -/
def SelectedFormCutOff (s : State) (op : Opcode) : Prop :=
  ∀ f, formOf op (payloadWindow s) = some f → FormCutOff s f

/-- Where the two forms a comparison chooses between have one length behind the bytes compared, they are cut off alike, and
with no answer the length is out of reach too (44_two_colour_ops.md R206). -/
theorem formCutOff_of_same_length_iff {s : State} {i j n : Nat} {g : Bool → Form} (hij : i < j) (hj : j < maxOperands)
    (hn : j < n) (hlength : ∀ b, (g b).length = n) :
    (∀ f, (byteLe (payloadWindow s) i j).map g = some f → FormCutOff s f) ↔ ¬ s.fits n := by
  have hcutOff : ∀ b, FormCutOff s (g b) ↔ ¬ s.fits n := fun b => by
    rw [FormCutOff, hlength, and_iff_right (Nat.ne_zero_of_lt hn)]
  rcases byteLe_payloadWindow_cases s hij hj with ⟨hcut, h⟩ | ⟨-, -, h⟩ | ⟨-, -, h⟩
  · have hcut' : ¬ s.fits n := fun hfits => hcut (hfits.mono hn)
    simp [h, hcut']
  · simp [h, hcutOff]
  · simp [h, hcutOff]

/-- 44_two_colour_ops.md R202: the comparison of `d[0]` and `d[1]` selects the form. -/
theorem operandsCutOff_pat2_iff (s : State) : OperandsCutOff s .pat2 ↔ SelectedFormCutOff s .pat2 := by
  show ¬ s.fits 2 ∨ (s.operand 0 ≤ s.operand 1 ∧ ¬ s.fits 10) ∨ (s.operand 1 < s.operand 0 ∧ ¬ s.fits 4) ↔ _
  rw [SelectedFormCutOff, formOf_pat2]
  rcases byteLe_payloadWindow_cases s Nat.zero_lt_one (by decide) with ⟨hcut, h⟩ | ⟨hfits, hle, h⟩ | ⟨hfits, hlt, h⟩
  · simp [h, hcut]
  · simp [h, hfits, hle, hle.not_gt, FormCutOff, Form.length]
  · simp [h, hfits, hlt, hlt.not_ge, FormCutOff, Form.length]

/-- 44_two_colour_ops.md R206: the second comparison chooses between two forms of 12 bytes. -/
theorem operandsCutOff_pat2q_iff (s : State) : OperandsCutOff s .pat2q ↔ SelectedFormCutOff s .pat2q := by
  show ¬ s.fits 2 ∨ (s.operand 0 ≤ s.operand 1 ∧ ¬ s.fits 16) ∨ (s.operand 1 < s.operand 0 ∧ ¬ s.fits 12) ↔ _
  rw [SelectedFormCutOff, formOf_pat2q]
  rcases byteLe_payloadWindow_cases s Nat.zero_lt_one (by decide) with ⟨hcut, h⟩ | ⟨hfits, hle, h⟩ | ⟨hfits, hlt, h⟩
  · simp [h, hcut]
  · simp [h, hfits, hle, hle.not_gt, FormCutOff, Form.length]
  · have hhalves := formCutOff_of_same_length_iff (s := s) (i := 6) (j := 7) (n := 12)
      (g := fun le => if le then .pat2qLr else .pat2qTb) (by decide) (by decide) (by decide) (by decide)
    simpa [h, hfits, hlt, hlt.not_ge] using hhalves.symm

/-- 45_four_colour_ops.md R224: the forms with `d[0] > d[1]` have 12 bytes both. -/
theorem operandsCutOff_pat4_iff (s : State) : OperandsCutOff s .pat4 ↔ SelectedFormCutOff s .pat4 := by
  show ¬ s.fits 4 ∨ (s.operand 0 ≤ s.operand 1 ∧ s.operand 2 ≤ s.operand 3 ∧ ¬ s.fits 20)
    ∨ (s.operand 0 ≤ s.operand 1 ∧ s.operand 3 < s.operand 2 ∧ ¬ s.fits 8)
    ∨ (s.operand 1 < s.operand 0 ∧ ¬ s.fits 12) ↔ _
  rw [SelectedFormCutOff, formOf_pat4]
  rcases byteLe_payloadWindow_cases s Nat.zero_lt_one (by decide) with ⟨hcut, h⟩ | ⟨-, hle, h⟩ | ⟨-, hlt, h⟩
  · have hcut' : ¬ s.fits 4 := fun hfits => hcut (hfits.mono (by decide))
    simp [h, hcut']
  · rcases byteLe_payloadWindow_cases s (Nat.lt_succ_self 2) (by decide) with
      ⟨hcut, h'⟩ | ⟨hfits, hle', h'⟩ | ⟨hfits, hlt', h'⟩
    · simp [h, h', hcut]
    · simp [h, h', hfits, hle, hle.not_gt, hle', hle'.not_gt, FormCutOff, Form.length]
    · simp [h, h', hfits, hle, hle.not_gt, hlt', hlt'.not_ge, FormCutOff, Form.length]
  · have hwide := formCutOff_of_same_length_iff (s := s) (i := 2) (j := 3) (n := 12)
      (g := fun le => if le then .pat4U2x1 else .pat4U1x2) (by decide) (by decide) (by decide) (by decide)
    have hcut : ¬ s.fits 4 → ¬ s.fits 12 := mt fun hfits => hfits.mono (by decide)
    simpa [h, hlt, hlt.not_ge, or_iff_right_of_imp hcut] using hwide.symm

/-- 45_four_colour_ops.md R228: the second comparison chooses between two forms of 24 bytes. -/
theorem operandsCutOff_pat4q_iff (s : State) : OperandsCutOff s .pat4q ↔ SelectedFormCutOff s .pat4q := by
  show ¬ s.fits 2 ∨ (s.operand 0 ≤ s.operand 1 ∧ ¬ s.fits 32) ∨ (s.operand 1 < s.operand 0 ∧ ¬ s.fits 24) ↔ _
  rw [SelectedFormCutOff, formOf_pat4q]
  rcases byteLe_payloadWindow_cases s Nat.zero_lt_one (by decide) with ⟨hcut, h⟩ | ⟨hfits, hle, h⟩ | ⟨hfits, hlt, h⟩
  · simp [h, hcut]
  · simp [h, hfits, hle, hle.not_gt, FormCutOff, Form.length]
  · have hhalves := formCutOff_of_same_length_iff (s := s) (i := 12) (j := 13) (n := 24)
      (g := fun le => if le then .pat4qLr else .pat4qTb) (by decide) (by decide) (by decide) (by decide)
    simpa [h, hfits, hlt, hlt.not_ge] using hhalves.symm

/-- The rules' condition, opcode by opcode, is that the form the window selects is cut off. -/
theorem operandsCutOff_iff (s : State) (op : Opcode) : OperandsCutOff s op ↔ SelectedFormCutOff s op := by
  cases op with
  | pat2 => exact operandsCutOff_pat2_iff s
  | pat2q => exact operandsCutOff_pat2q_iff s
  | pat4 => exact operandsCutOff_pat4_iff s
  | pat4q => exact operandsCutOff_pat4q_iff s
  | cph | keep | skip2 | cpcf | cpcb | cphn | cphw | raw | raw2 | raw4 | fill | dith =>
    simp [OperandsCutOff, SelectedFormCutOff, formOf, FormCutOff, Form.length]

/-- The decoder refuses the window exactly where the operands are cut off. -/
theorem decode_payloadWindow_eq_error_iff (s : State) (v : Nibble) :
    decode v (payloadWindow s) = .error .payloadTooShort ↔ OperandsCutOff s (Opcode.ofNibble v) := by
  rw [decode_eq_error_iff, operandsCutOff_iff]
  simp only [length_payloadWindow_lt_iff, SelectedFormCutOff]

/-! ### A dispatch that was decoded -/

theorem wc_lt_skipStep (s : State) (wc cx cy : Nat) : wc < (skipStep s wc cx cy).1 := by
  unfold skipStep
  split <;> dsimp only <;> omega

/-- Each of the two steps of `skip2()` moves the write cursor forward, and at least one is taken. -/
theorem wc_lt_skip2 (s : State) : s.wc < (skip2 s).1 := by
  have hfirst := wc_lt_skipStep s s.wc s.blockX s.blockY
  unfold skip2
  generalize skipStep s s.wc s.blockX s.blockY = first at hfirst ⊢
  obtain ⟨wc, cx, cy, _ | _⟩ := first
  · exact hfirst.trans (wc_lt_skipStep s wc cx cy)
  · exact hfirst

theorem Completes.wc_lt {s t : State} (h : Completes s t) : s.wc < t.wc := by
  rcases h.wc with hwc | hwc
  · omega
  · exact hwc ▸ wc_lt_skip2 s

/-- An instruction whose operands are in the payload completes. -/
theorem exec_completes_of_not_cutOff {i : Instr} {s t : State} (hfits : ¬ FormCutOff s i.form) (h : exec i s = .next t) :
    Completes s t ∧ (GoesOn s t ∨ EndsEarly s t) := by
  by_cases hi : i = .skip2
  · subst hi
    obtain ⟨t', ht', hout⟩ := execSkip2_outcome s
    obtain rfl : t = t' := Host.Outcome.next.inj (h.symm.trans ht')
    exact ⟨execSkip2_completes h, hout⟩
  · obtain ⟨execute, hbody, hexec⟩ := exec_eq_dispatch i hi
    have hfits' : i.form.length = 0 ∨ s.fits i.form.length := by
      rwa [FormCutOff, not_and_not_right, ← or_iff_not_imp_left] at hfits
    obtain ⟨t', ht', hadv, -⟩ := dispatch_advances i.form execute s hbody hfits'
    obtain rfl : t = t' := Host.Outcome.next.inj ((h.symm.trans (hexec s)).trans ht')
    exact ⟨hadv.completes hfits', .inl hadv.goesOn⟩

theorem wc_le_walkerAdvance (s : State) : s.wc ≤ (walkerAdvance s).wc := by
  rcases walkerAdvance_cases s with ⟨-, h⟩ | ⟨-, -, h⟩ | ⟨-, -, h⟩ <;> rw [h]
  · exact Nat.le_add_right s.wc (7 * s.w)
  · exact Nat.le_add_right s.wc (7 * s.w)

theorem payOvr_walkerAdvance (s : State) : (walkerAdvance s).flag .payOvr = s.flag .payOvr := by
  rcases flag_walkerAdvance s with h | h
  · exact h _
  · rw [h]
    cases s.flag .payOvr <;> rfl

/-- One block of a running decoder whose operands are all there. -/
theorem runBlock_of_not_operandsCutOff {s : State} (hbusy : s.flag .busy = true)
    (h : ¬ OperandsCutOff s (Opcode.ofNibble (fetchOpcode s))) :
    ∃ t, runBlock s = .next t ∧ t.flag .payOvr = s.flag .payOvr ∧ s.wc < t.wc := by
  rcases runBlock_cases s with ⟨hdec, -⟩ | ⟨i, rest, t, hdec, ht, hrun⟩
  · exact absurd ((decode_payloadWindow_eq_error_iff s _).mp hdec) h
  · have hfits : ¬ FormCutOff s i.form := fun hcut =>
      (length_payloadWindow_lt_iff.mpr hcut).not_ge (length_le_of_decode hdec)
    refine ⟨_, hrun, ?_⟩
    obtain ⟨hcomp, hgo | hearly⟩ := exec_completes_of_not_cutOff hfits ht
    · have hbusy' : t.flag .busy = true := (hgo.flags _ rfl).trans hbusy
      rw [if_pos hbusy', payOvr_walkerAdvance]
      exact ⟨hgo.flags _ rfl, hcomp.wc_lt.trans_le (wc_le_walkerAdvance t)⟩
    · have hidle : t.flag .busy = false := hearly.flags _ rfl
      rw [hidle, if_neg Bool.false_ne_true, hearly.flags .payOvr rfl]
      refine ⟨?_, hcomp.wc_lt⟩
      cases s.flag .payOvr <;> rfl

theorem runBlock_of_operandsCutOff {s : State} (h : OperandsCutOff s (Opcode.ofNibble (fetchOpcode s))) :
    runBlock s = .next (raisePayloadOverrun (fetchOpcode s) (clearLatches s)) := by
  rw [runBlock, (decode_payloadWindow_eq_error_iff s _).mpr h]

/-- Settles O40: the decoder refuses where the operands are cut off, and the refusal is the exception; what it decodes
completes, which raises no `PAY_OVR` and moves the write cursor. -/
theorem overrunIsTakenExactlyWhenOperandsAreCutOff : Obligations.OverrunIsTakenExactlyWhenOperandsAreCutOff := by
  intro s hhost hbusy
  rw [step_of_no_host hhost, decoderTurn_of_busy hbusy]
  by_cases hcut : OperandsCutOff s (Opcode.ofNibble (fetchOpcode s))
  · exact ⟨_, runBlock_of_operandsCutOff hcut, fun _ => raisePayloadOverrun_takes _ s, fun h => absurd hcut h⟩
  · obtain ⟨t, ht, heffect⟩ := runBlock_of_not_operandsCutOff hbusy hcut
    exact ⟨t, ht, fun h => absurd h hcut, fun _ => heffect⟩

/-! ### The reset input -/

theorem step_of_reset {s : State} {turns : List HostTurn} (h : s.host = .reset :: turns) :
    step s = .next (hardReset { s with host := turns }) := by
  simp only [step, turn, h]

/-- `STATUS` is that of the reset state, and `irq` depends on nothing else (10_state.md R37). -/
theorem irq_hardReset (s : State) : (hardReset s).irq = false := by
  obtain ⟨-, hirq⟩ := irqIsDoneOrFail (hardReset s) State.reset
  rw [hirq rfl]
  simp [State.irq, flag_reset]

/-- Settles O46: what the reset input leaves is the state of R38 with the memories, the records and the model's own fields put
back. -/
theorem hardwareResetClearsTheRegisters : Obligations.HardwareResetClearsTheRegisters := fun _ _ hhost =>
  ⟨_, step_of_reset hhost, rfl, rfl, rfl, rfl, rfl, rfl, rfl, rfl, rfl, rfl, rfl, rfl, rfl, rfl, rfl, rfl, irq_hardReset _,
    rfl, rfl, rfl, rfl, rfl, rfl, rfl, rfl, rfl⟩

end Machine
end Sys2Proof
end
